-- ==== Sys2Proof/Word.lean ====
section
/-!
DEFINITION. The word types of the ZN-1024: a 32-bit parameter, reply or record word, and a byte.
-/

namespace Sys2Proof

/-- A 32-bit word of a command, reply, record or dump (R18). -/
abbrev Word := BitVec 32

/-- A byte of a frame, ring unit, mailbox entry or image. -/
abbrev Byte := BitVec 8

end Sys2Proof
end

