-- ==== Sys2Proof/Syntax.lean ====
section
/-!
DEFINITION. The commands of the block: one constructor of `Instr` per row of spec/opcode_table.json.

A row of the table is either a command packet that takes effect (its operand is the packet, `Cmd`)
or an event of the device or of its surroundings (its operands are what the surroundings decide:
which port, which bytes, what was measured).
-/

namespace Sys2Proof

/-- Who sent a command packet (Table 10-1). -/
inductive Sender where
  /-- A PCIe function, 0 the physical function and 1 to 15 the virtual functions. -/
  | pcie (fn : Nat)
  /-- The management bus. -/
  | mgmt
  /-- An in-band Riwen command frame from the device with this number. -/
  | inband (dev : Nat)
  deriving DecidableEq, Repr

/-- A command packet: the header of Table 10-2, the parameter words, and whether its trailer
is present and right (R331, R332). -/
structure Cmd where
  src        : Sender
  version    : BitVec 8
  unordered  : Bool
  strictTime : Bool
  atBeat     : Bool
  noReply    : Bool
  checkCrc   : Bool
  /-- Flag bits [7:5], reserved. -/
  flagsRsv   : BitVec 3
  opcode     : BitVec 16
  tag        : BitVec 12
  queue      : BitVec 4
  paramWords : BitVec 16
  device     : BitVec 14
  level      : BitVec 3
  unit       : BitVec 15
  /-- Bytes 12 to 15: BEAT_LOW or SEQ. -/
  low        : Word
  /-- The trailer computed over the packet equals the one received. -/
  crcOk      : Bool
  words      : List Word
  deriving DecidableEq, Repr

/-- The values a lane's receive equaliser holds (Table 2-9). -/
structure RxEq where
  ctle : BitVec 5
  dfe1 : BitVec 8
  /-- The 32 feed-forward taps, tap 0 first. -/
  ffe  : List (BitVec 8)
  deriving DecidableEq, Repr

/-- A PRBS_CONFIG, with what the lane's checker compared and found wrong since the lane's last PRBS row (R61). -/
structure PrbsCmd where
  cmd  : Cmd
  bits : Nat
  errs : Nat
  deriving DecidableEq, Repr

/-- A MAC_STATS_READ, with the PCS blocks with an invalid header or control code since the port's last such row (R80). -/
structure StatsCmd where
  cmd    : Cmd
  pcsErr : Nat
  deriving DecidableEq, Repr

/-- A block write to a mailbox. -/
structure BoxWrite where
  data : List Byte
  /-- It falls into the ACLK cycle of the device's last read of the mailbox (R341). -/
  same : Bool
  deriving DecidableEq, Repr

/-- What the device finds where it writes a reply or an event. -/
structure Room where
  /-- CONSUMER in the ring's control block. -/
  consumer : BitVec 64
  /-- The write falls into the ACLK cycle of the bus's last read of the mailbox (R341). -/
  same     : Bool
  deriving DecidableEq, Repr

/-- What a figure-of-merit window measured, and what the receiver has at its end (R56). -/
structure FomWindow where
  fom    : BitVec 16
  signal : Bool
  lock   : Bool
  deriving DecidableEq, Repr

/-- What the receiver finds of a frame: whether its FCS holds over the bytes as they arrived once the FEC has corrected what it can,
and the symbol errors of the worst FEC codeword that the frame touches (R71). -/
structure FrameCheck where
  fcs     : Bool
  symErrs : Nat
  deriving DecidableEq, Repr

/-- The header of a Riwen frame (Table 13-2) with the port it arrived on. -/
structure Riwen where
  port       : Nat
  version    : BitVec 8
  payloadLen : Nat
  /-- PAYLOAD_LEN agrees with the frame (R411). -/
  lenOk      : Bool
  parishId   : BitVec 16
  srcDevice  : BitVec 14
  dstDevice  : BitVec 14
  all        : Bool
  managerGen : BitVec 16
  bellGen    : BitVec 8
  depth      : BitVec 8
  deriving DecidableEq, Repr

/-- The payload of a BELL frame (Table 13-3) and the receive stamp of the frame. -/
structure BellPayload where
  /-- TX_TIME, whole nanoseconds, and its 16-bit fraction. -/
  txNs     : Nat
  txFrac   : BitVec 16
  beats    : BitVec 16
  holdover : Bool
  masterId : BitVec 64
  actEpoch : BitVec 16
  actPhase : BitVec 8
  actBeat  : BitVec 48
  deriving DecidableEq, Repr

/-- A counter that has two copies (R385). -/
inductive CounterName where
  | perf (index : Nat)
  | mac (port stat : Nat)
  | parser (port stat : Nat)
  /-- 0 green, 1 yellow, 2 red. -/
  | meter (idx colour : Nat)
  | hits (rule : Nat)
  | histogram (queue bin : Nat)
  /-- The totals of a port. -/
  | tally (port : Nat)
  deriving DecidableEq, Repr

/-- A state word of a region that a REGION_STATE_UE can strike (R385). -/
inductive RegionWord where
  | meter (idx : Nat)
  | queueShaper (queue : Nat)
  | portShaper (port : Nat)
  | headTag (queue : Nat)
  /-- The virtual time of a port's tier, express when set. -/
  | virtualTime (port : Nat) (express : Bool)
  | allocatorCount
  /-- One copy of a link word (R383). -/
  | linkCopy (addr : Nat)
  /-- One copy of a counter. -/
  | counterCopy
  /-- Both copies of a counter. -/
  | counterBoth (counter : CounterName)
  deriving DecidableEq, Repr

/-- What the ECC of a glacier block's words found as they were read (R379). -/
inductive BlockRead where
  | clean
  | corrected
  | uncorrectable
  deriving DecidableEq, Repr

/-- A clock branch that stops (R441): of a port block, or of the MCLK masters. -/
inductive ClockBranch where
  | block (n : Nat)
  | mclk
  deriving DecidableEq, Repr

/-- What has trained as a released die restarts (R445): its two stacks, the 64 die-to-die channels, its four chiplets. -/
structure DieTraining where
  die      : Nat
  glacier  : List Bool := List.replicate 2 true
  channels : List Bool := List.replicate 64 true
  chiplets : List Bool := List.replicate 4 true
  deriving DecidableEq, Repr

/-- A flit that failed its CRC (R388). -/
structure BadFlit where
  channel : Nat
  /-- The flits sent behind it that the channel's replay buffer holds. -/
  behind  : Nat := 0
  /-- It was a replay that failed. -/
  again   : Bool := false
  deriving DecidableEq, Repr

/-- A register that is written over a bus: BAR0 of a PCIe function, the boot window BAR2 of function 0, the management
bus, or the JTAG port. -/
inductive RegBus where
  | bar0 (fn : Nat)
  | bar2
  | mgmt
  /-- The instruction register of the JTAG port (R462). -/
  | jtag
  deriving DecidableEq, Repr

/-- One command of the block: a row of spec/opcode_table.json. -/
inductive Instr where
  -- group 0x01
  | identify (c : Cmd)
  | behaviourArm (c : Cmd)
  | behaviourCommit (c : Cmd)
  | behaviourDisarm (c : Cmd)
  | nop (c : Cmd)
  | barrier (c : Cmd)
  | queueConfig (c : Cmd)
  | epochStatus (c : Cmd)
  | activate (c : Cmd)
  | parishActivate (c : Cmd)
  | epochAbandon (c : Cmd)
  | functionRights (c : Cmd)
  | eventConfig (c : Cmd)
  | hostRingConfig (c : Cmd)
  | hostCodeMap (c : Cmd)
  -- group 0x02
  | laneConfig (c : Cmd)
  | laneStatus (c : Cmd)
  | laneTxEq (c : Cmd)
  | laneRxEq (c : Cmd)
  | laneFomRead (c : Cmd)
  | prbsConfig (c : PrbsCmd)
  /-- `bits` and `errs` are what the checker compared and found wrong since the lane's last PRBS row. -/
  | prbsRead (c : Cmd) (bits errs : Nat)
  | laneRetrain (c : Cmd)
  | portConfig (c : Cmd)
  | portDelete (c : Cmd)
  | portStatus (c : Cmd)
  | macStatsRead (c : StatsCmd)
  | portFcConfig (c : Cmd)
  | portTsCal (c : Cmd)
  -- group 0x03
  | parserPortConfig (c : Cmd)
  | parseStateWrite (c : Cmd)
  | parseTransWrite (c : Cmd)
  | parseRead (c : Cmd)
  | patternWrite (c : Cmd)
  | rangeWrite (c : Cmd)
  | keyProfileWrite (c : Cmd)
  | ruleWrite (c : Cmd)
  | ruleDelete (c : Cmd)
  | ruleRead (c : Cmd)
  | parserStatsRead (c : Cmd)
  -- group 0x04
  | tblPartition (c : Cmd)
  | emInsert (c : Cmd)
  | emDelete (c : Cmd)
  | lpmInsert (c : Cmd)
  | lpmDelete (c : Cmd)
  | tblSearch (c : Cmd)
  | tblNext (c : Cmd)
  | tblFlush (c : Cmd)
  | tblObjWrite (c : Cmd)
  | tblObjDelete (c : Cmd)
  | tblObjStatus (c : Cmd)
  | ecmpMemberWrite (c : Cmd)
  | tblPortConfig (c : Cmd)
  | tblGlobalConfig (c : Cmd)
  | emKeyProfileWrite (c : Cmd)
  | tblStatus (c : Cmd)
  -- group 0x05
  | bufRegionConfig (c : Cmd)
  | bufPortConfig (c : Cmd)
  | bufQueueConfig (c : Cmd)
  | wredProfileWrite (c : Cmd)
  | glacierQuotaConfig (c : Cmd)
  | bufRegionStatus (c : Cmd)
  | queueStatus (c : Cmd)
  | bufGlacierStatus (c : Cmd)
  -- group 0x06
  | schedPortConfig (c : Cmd)
  | schedQueueConfig (c : Cmd)
  | gateListWrite (c : Cmd)
  | gateListRead (c : Cmd)
  | gateActivate (c : Cmd)
  | gateCancel (c : Cmd)
  | gateStatus (c : Cmd)
  | meterConfig (c : Cmd)
  | meterRead (c : Cmd)
  | schedQueueStatus (c : Cmd)
  -- group 0x07
  | timeStatus (c : Cmd)
  | bellConfig (c : Cmd)
  | timeSourceConfig (c : Cmd)
  | timeAdjustStep (c : Cmd)
  | timeAdjustSlew (c : Cmd)
  | timeAdjustFreq (c : Cmd)
  | timeAdjustSet (c : Cmd)
  | timePpsLabel (c : Cmd)
  -- group 0x08
  | tallyConfig (c : Cmd)
  | dumpRingConfig (c : Cmd)
  | tallyPortRead (c : Cmd)
  | pcConfig (c : Cmd)
  | pcRead (c : Cmd)
  | rateConfig (c : Cmd)
  | rateRead (c : Cmd)
  | sampleConfig (c : Cmd)
  | mirrorConfig (c : Cmd)
  -- group 0x09
  | errStatus (c : Cmd)
  | errInjectCancel (c : Cmd)
  | errInjectOnce (c : Cmd)
  | errInjectPeriodic (c : Cmd)
  | errInjectArmed (c : Cmd)
  | errConfig (c : Cmd)
  | errLogRead (c : Cmd)
  -- group 0x0A
  | stewardStatus (c : Cmd)
  | microcodeLoadBegin (c : Cmd)
  | microcodeLoadData (c : Cmd)
  | microcodeLoadEnd (c : Cmd)
  | microcodeLoadFromSlot (c : Cmd)
  | stewardPatch (c : Cmd)
  | stewardTraceRead (c : Cmd)
  -- group 0x0B
  | parishConfig (c : Cmd)
  | parishStatus (c : Cmd)
  | relayConfig (c : Cmd)
  | protectGroupWrite (c : Cmd)
  | watchSlotWrite (c : Cmd)
  | parishMemberRead (c : Cmd)
  -- groups 0x0C and 0x0D
  | powerStatus (c : Cmd)
  | thermalConfig (c : Cmd)
  | clockStatus (c : Cmd)
  | keepRunning (c : Cmd)
  | allowStop (c : Cmd)
  | dieHold (c : Cmd)
  | dieRelease (c : Cmd)
  | avsConfig (c : Cmd)
  | journalRead (c : Cmd)
  | journalAppend (c : Cmd)
  | imageWriteBegin (c : Cmd)
  | imageWriteData (c : Cmd)
  | imageWriteFinish (c : Cmd)
  | imageSelect (c : Cmd)
  | imageStatus (c : Cmd)
  -- registers and mailboxes
  | cmdDoorbell (fn q : Nat) (producer : BitVec 64)
  | hostTxDoorbell (fn : Nat) (producer : BitVec 64)
  | adminCmdEnable (fn : Nat) (value : BitVec 64)
  | registerWrite (bus : RegBus) (offset : Nat) (value : BitVec 64)
  | cmdFifo (data : BoxWrite)
  | rplFifo
  | evtFifo
  | resync (value : Word)
  | go (value : Word)
  -- the command path
  | commandFetch (fn q : Nat) (bytes : List Byte)
  | mailboxCommandTake
  | commandDispatch (src : Sender) (q : Nat)
  | commandComplete (src : Sender) (q : Nat) (tag : BitVec 12)
  | atBeatBoundary (src : Sender) (q : Nat) (tag : BitVec 12)
  | replyWrite (src : Sender) (q : Nat) (room : Room)
  | eventDelivery (source dest : Nat) (room : Room)
  | hostTxDescriptor (fn : Nat) (desc : List Word) (data : List Byte)
  -- lanes
  | signalDetected (port : Nat)
  /-- `partner` bit n: the partner advertises rate code n. -/
  | negotiationResolved (port : Nat) (partner : BitVec 5)
  | negTimeout (port : Nat)
  /-- `inverted` is, per lane of the port, the polarity inversion that training found. -/
  | trainingDone (port : Nat) (inverted : List Bool)
  | trainTimeout (port : Nat)
  /-- The markers: logical lane numbers, measured receive delays in ps and inversions per lane, and the skew. -/
  | alignLock (port : Nat) (logical : List Nat) (skewNs : Nat) (delaysPs : List Nat) (inverted : List Bool)
  | alignTimeout (port : Nat)
  /-- `lock` tells loss of clock lock from loss of signal. -/
  | signalLost (lane : Nat) (lock : Bool)
  /-- `eq` is where adaptation stands. -/
  | fomWindowEnd (lane : Nat) (window : FomWindow) (eq : RxEq)
  -- receive
  | rxFrameStart (port : Nat)
  /-- `data` is the frame without its FCS, `len` its length with it. -/
  | rxFrameEnd (port len : Nat) (data : List Byte) (check : FrameCheck)
  | pauseTimerExpiry (port prio : Nat)
  | pauseWdFired (port prio : Nat)
  | pauseWdEnded (port prio : Nat)
  | xoffRefresh (port prio : Nat)
  /-- `present` is what has arrived of a frame that has not ended. -/
  | parseStart (pkt : Nat) (present : List Byte)
  -- granary, glacier, transmit
  /-- The packets that reach a region's allocator in one GCLK cycle. -/
  | admission (region : Nat) (pkts : List Nat)
  /-- The refill requests of one GCLK cycle. -/
  | refillRequest (region : Nat) (queues : List Nat)
  /-- `ue`: the block's data held an uncorrectable error. -/
  | refillDataArrived (queue : Nat) (read : BlockRead)
  | pointerFetchDone (die pool : Nat)
  | pointerWritebackDone (die pool : Nat)
  | txSelect (port : Nat)
  | txUnderrun (port sent : Nat)
  | txFrameEnd (port : Nat)
  | portDrainStep (port : Nat)
  | shaperTick
  | meterTick
  | gateEntryChange (port : Nat)
  | gateTakeover (port : Nat)
  | queueSample (port : Nat)
  | beatBoundary
  | tallyBankClose
  | conservationCheck
  | dumpUnitWrite (stream : Nat) (consumer : BitVec 64)
  -- tables
  /-- The location as TBL_SEARCH numbers it (R179). -/
  | ageSweepVisit (loc : Word)
  | learnInsert (region : Nat)
  | stashMove (table idx : Nat)
  | shadowRewriteDone (family idx : Nat)
  | epochCleanupDone (epoch : BitVec 16)
  | flushDone (port : Nat)
  | objectFreed (kind id : Nat)
  | copyRebuildDone (region : Nat)
  -- time
  | bellRateChange
  /-- The captured time base value in units of 2^-3 ns. -/
  | ppsEdge (captured : Nat)
  /-- The measured frequency error of the time base, in units of 2^-48. -/
  | ref10mWindow (freq : Int)
  | sourceTimeout
  | powerOnSecond
  | powerOnSave
  -- stewards
  | microTrap (engine cause : Nat)
  | patchLoad (region : Nat)
  /-- `same`: the read-back equals the staged image. -/
  | patchVerify (region : Nat) (same : Bool)
  | patchDone (region : Nat)
  | patchFailed (region : Nat)
  -- errors
  /-- The cell by its place in the slice: its bank, the sub-bank of its first segment, and its number there; `cellOk`: the cell
  passed its test. -/
  | granaryUe (region bank sub row : Nat) (cellOk : Bool)
  /-- Corrected segments and cells with a double error that the pass found, with `cellOk`. -/
  | granaryScrub (region : Nat) (corrected : List Nat) (ues : List (Nat × Bool))
  | tableScrub (region : Nat) (corrected : Nat) (ue : Option Word)
  | tableUe (region : Nat) (addr : Word) (pkt : Option Nat)
  /-- `egress`: the side; `parity` tells PIPE_PARITY from CLUSTER_STATE_UE. -/
  | clusterRecovery (cluster : Nat) (egress parity : Bool)
  | fenceLift (cluster : Nat) (egress : Bool)
  | regionStateUe (region : Nat) (word : RegionWord)
  /-- The packets of the queue's glacier segment before the broken descriptor. -/
  | glacierDescUe (queue keep : Nat)
  | poolAuditDone (die : Nat)
  | glacierStackFail (stack : Nat)
  | d2dCrc (flit : BadFlit)
  | d2dWire (channel wire : Nat)
  | d2dLinkDown (dir : Nat)
  /-- The retired channels that trained. -/
  | d2dRetrain (healthy : List Nat)
  /-- `errs`: the symbol errors of the window's codewords that have errors the decoder can count, in order; `beyond`: the codewords
  whose errors are too many for it to count. -/
  | fecDegradeWindow (port beyond : Nat) (errs : List Nat)
  | linkFault (port : Nat)
  | stewardWatchdog (engine : Nat)
  | clockLoss (domain : Nat)
  | referenceLossTimeout
  /-- The sensor's reading, in units of 0.125 degrees C. -/
  | thermalWarn (sensor : Nat) (reading : Int)
  | thermalTrip (sensor : Nat) (reading : Int)
  | voltageOor (rail mv : Nat)
  | cmdBufUe (src : Sender) (q : Nat) (tag : BitVec 12)
  | injectionPeriod (detector inst : Nat)
  -- parish
  | riwenCommand (h : Riwen) (bytes : List Byte)
  | riwenReply (h : Riwen) (bytes : List Byte)
  | riwenEvent (h : Riwen) (bytes : List Byte)
  /-- `rxNs`: the frame's receive stamp, whole nanoseconds. -/
  | bell (h : Riwen) (b : BellPayload) (rxNs : Nat)
  | delayReq (h : Riwen) (seq : BitVec 16) (rxNs : Nat)
  /-- The four stamps of the exchange, T1 and T4 the device's own, in units of 2^-16 ns. -/
  | delayResp (h : Riwen) (seq : BitVec 16) (t1 t2 t3 t4 : Nat)
  | hello (h : Riwen) (segment : Nat) (managerSeen : Bool) (bitmap : List Byte)
  | prepare (h : Riwen) (epoch : BitVec 16) (deadline : BitVec 48)
  | vote (h : Riwen) (epoch : BitVec 16) (segment : Nat) (refused : Bool) (bitmap : List Byte)
  | commit (h : Riwen) (epoch : BitVec 16) (thaw : BitVec 48)
  | commitAck (h : Riwen) (epoch : BitVec 16)
  | abort (h : Riwen) (epoch : BitVec 16) (cause : Nat)
  | linkAlarm (h : Riwen) (originDev originPort : Nat) (down : Bool) (cause : Nat) (seq : BitVec 16) (hops : Nat)
  | tallySummary (h : Riwen) (bytes : List Byte)
  | voteDeadline
  | activationDeadline
  | standbyAckTimeout
  | commandResend (ftag : Nat)
  | managerLost
  | standbyTakeover
  | alarmRepeat (port : Nat)
  | remoteDownExpiry (port : Nat)
  | wtrExpiry (group : Nat)
  -- power, reset, start-up
  | vauxApplied
  | vauxRemoved
  /-- The strap balls BOOT_MODE[1:0] sampled at the end of stage 1. -/
  | coreRailsInRange (bootMode : BitVec 2)
  | resetN
  | resetHoldEnd
  | perstN
  | functionLevelReset (fn : Nat)
  /-- Per PLL group, whether its primary and its standby locked. -/
  | stageClocksDone (primary standby : List Bool)
  | stageCentralDone
  | stageRegionsDone
  /-- The stacks that trained. -/
  | stageGlacierDone (trained : List Bool)
  /-- The channels that trained, 64 of them. -/
  | stageD2dDone (channels : List Bool)
  /-- The chiplets whose calibration ended well. -/
  | stageLanesDone (chiplets : List Bool)
  | imageRestartTimer
  | dieReady (trained : DieTraining)
  /-- The lowest VID code at which the monitors of both dies pass. -/
  | avsStep (want : Nat)
  | clockWake (branch : ClockBranch)
  | branchStop
  -- rows added at the end of the table
  | prbsCheckerLock (lane : Nat)
  | prbsLockLost (lane : Nat) (bits errs : Nat)
  /-- `post` picks c(+1), otherwise c(-1); `up` raises the magnitude. -/
  | coefficientRequest (lane : Nat) (post up : Bool)
  | hostReceiveWrite (fn : Nat) (consumer : BitVec 64)
  | slotEraseDone (slot : Nat)
  | referenceRestored
  | pcieLinkUp
  | allocatorCountRecomputed (region : Nat)
  deriving DecidableEq, Repr

end Sys2Proof
end

