-- ==== Sys2Proof/Decode.lean ====
section
/-!
DEFINITION. The decoder of the block. spec/opcode_table.json gives no row any bits: a row is a whole packet that takes
effect or an event of the surroundings, so no word spells one.
-/

namespace Sys2Proof

/-- The command that a word spells by the table's bits: none, since no row of the table has bits. -/
def decodeTableWord (_nbits _w : Nat) : Option Instr := none

end Sys2Proof
end

