-- ==== Sys2Proof/Config.lean ====
section
/-!
DEFINITION. What an implementation or one part fixes, and the free values: constants without a body, so that
no proof can lean on a value of theirs.
-/

namespace Sys2Proof.Config

/-- The values that the spec leaves open, in the order in which a run uses them. -/
opaque freeValue : Nat → Nat

/-- Which of the four usual forms an LFSR of the device has: the spec gives its polynomial and not its form. -/
opaque lfsrForm : Nat

/-- The reset registers and fuses that IDENTIFY reports (Table 15-6). (DESIGN CHOICE: log entry 7.) -/
opaque ordering : Bool

opaque stepping : BitVec 8

/-- The stepping sequence number of another stepping than A1 (R462). -/
opaque steppingSeq : BitVec 4

/-- The behaviour level that the part's fuse holds. -/
opaque fusedLevel : BitVec 8

/-- MAX_LEVEL, the highest level the part implements (Table 15-6): 1 on an A1 part, and levels begin at 1.
(DEDUCED: log entry 8.) -/
def maxLevel : BitVec 8 := if stepping = 0x11 ∨ fusedLevel = 0 then 1 else fusedLevel

/-- Images are checked against KEY_HASH when it is set. -/
opaque secureLoad : Bool

/-- The 64-bit unique identifier of the part. -/
opaque deviceUid : BitVec 64

/-- SHA-384 of a byte list. -/
opaque sha384 : List Byte → BitVec 384

/-- The fused hash of the public key. -/
opaque keyHash : BitVec 384

/-- The ECDSA P-384 check of key, digest and signature. -/
opaque ecdsaOk : List Byte → BitVec 384 → List Byte → Bool

/-- The virtual functions that the host's SR-IOV settings enable. -/
opaque vfEnabled : Nat → Bool

/-- The check bits that the control store keeps beside a microword. -/
opaque wordCode : BitVec 160 → BitVec 16

/-- Stage 0 finds no readable flash. -/
opaque flashAbsent : Bool

/-- The 64 KiB sectors of the flash's record log: 960 in a 64 MiB part. -/
opaque logSectors : Nat

end Sys2Proof.Config
end

