-- ==== Sys2Proof/Machine/State.lean ====
section
/-!
DEFINITION. The state of the ZN-1024 as plain data, one structure per chapter of the spec, every field
with its value at reset as its default. Tables of objects are lists of (number, value) pairs in strictly
rising order of number; an object that is not listed holds its reset value (`Tab`).
-/

namespace Sys2Proof.Machine

/-- A sparse table of numbered objects: strictly rising numbers, an unlisted object is at its reset value. -/
abbrev Tab (α : Type) := List (Nat × α)

/-- Why the block stops. -/
inductive Fault where
  /-- Raised by an event row whose operand names an object that Table 0-4, or the table that numbers the
  object, does not number: there is no such object to act on. Safe: nothing is claimed of such a row. -/
  | noSuchObject
  deriving DecidableEq, Repr

/-- Why the model has no answer. -/
inductive Refusal where
  /-- Raised by `exec` for a row whose meaning is not written yet. Safe. -/
  | notModelled (mnemonic : String)
  deriving DecidableEq, Repr

/-! ### Counters -/

/-- A 48-bit counter that wraps and sets a sticky bit (R127). -/
structure C48 where
  val    : BitVec 48 := 0
  sticky : Bool := false
  /-- Both its copies are lost: it counts no more (R385). -/
  frozen : Bool := false
  deriving DecidableEq, Repr

/-- A detection whose recovery has not ended: what its RECOVERY_DONE and its log record will say. -/
structure DetMark where
  det      : Nat
  inst     : Nat
  addr     : Nat := 0
  injected : Bool := false
  /-- The time base value from which its duration counts; a step of the time base moves it. -/
  startNs  : Nat
  /-- Beat, bell generation and time base value at the detection. -/
  beat     : BitVec 48
  gen      : BitVec 8
  ns       : Nat
  deriving DecidableEq, Repr

/-! ### Chapter 02: lanes -/

/-- The states of Table 2-2. -/
inductive LaneState where
  | disabled | waitSignal | negotiate | train | align | up | test
  deriving DecidableEq, Repr

/-- A lane: Table 2-5 (configuration), Table 2-6 (status), Tables 2-7 to 2-9, and the windows of R58. -/
structure Lane where
  anEnable       : Bool := true
  trainEnable    : Bool := true
  fallbackEnable : Bool := false
  rxPolAuto      : Bool := true
  rxPolForce     : Bool := false
  txPolInvert    : Bool := false
  cdrBw          : BitVec 2 := 1
  forcedRate     : BitVec 3 := 4
  rateEnable     : BitVec 5 := 0x1F
  fomWarn        : BitVec 16 := 0x05DC
  fomHyst        : BitVec 16 := 0x01F4
  rxPolInv       : Bool := false
  order          : BitVec 2 := 3
  logical        : BitVec 3 := 0
  signal         : Bool := false
  lock           : Bool := false
  fom            : BitVec 16 := 0x8000
  /-- Windows in a row below the warning threshold, and at or above threshold plus hysteresis. -/
  lowWindows     : Nat := 0
  okWindows      : Nat := 0
  /-- LANE_FOM_LOW was raised and LANE_FOM_OK has not followed. -/
  lowRaised      : Bool := false
  preMag         : BitVec 5 := 4
  postMag        : BitVec 5 := 8
  amp            : BitVec 4 := 10
  rxMode         : BitVec 2 := 0
  /-- The equaliser values in force. Table 2-9 gives no reset values: the model's are 0 with the least main tap. -/
  eq             : RxEq := { ctle := 0, dfe1 := 0, ffe := List.replicate 4 0 ++ 32 :: List.replicate 27 0 }
  /-- The values at the end of the previous figure-of-merit window (R55). -/
  eqPrev         : RxEq := { ctle := 0, dfe1 := 0, ffe := List.replicate 4 0 ++ 32 :: List.replicate 27 0 }
  /-- Windows in UP since the CTLE boost last moved (R55). -/
  ctleWindows    : Nat := 0
  genPattern     : BitVec 4 := 0
  chkPattern     : BitVec 4 := 0
  prbsLock       : Bool := false
  prbsSticky     : Bool := false
  prbsBits       : BitVec 64 := 0
  prbsErrs       : BitVec 48 := 0
  /-- ATTEMPTS: bring-up attempts since the last read. -/
  attempts       : BitVec 16 := 0
  deriving DecidableEq, Repr

/-! ### Packets -/

/-- The disposition codes of Table 9-1. -/
inductive Disp where
  | forwarded | stomped | dropped | toHost | consumed | copyDelivered | copyCut | copyDropped
  deriving DecidableEq, Repr

/-- The cells a packet holds, by the pool they are charged to (Table 6-1). -/
structure Charge where
  queue    : Nat := 0
  port     : Nat := 0
  shared   : Nat := 0
  headroom : Nat := 0
  refill   : Nat := 0
  deriving DecidableEq, Repr

/-- A header slot of the header vector (Table 4-3). -/
structure HdrSlot where
  htype  : BitVec 8
  offset : Nat
  length : Nat
  deriving DecidableEq, Repr

/-- The header vector of a parsed packet (Table 4-3). -/
structure HdrVec where
  slots         : List HdrSlot := []
  containers    : Tab (BitVec 16) := []
  parseLimit    : Bool := false
  trailing      : Bool := false
  payloadValid  : Bool := false
  csumBad       : Bool := false
  lengthPending : Bool := false
  emptyState    : Bool := false
  stateFlags    : BitVec 8 := 0
  payloadMatch  : BitVec 32 := 0
  profile       : BitVec 4 := 0
  payloadOffset : Nat := 0
  payloadLen    : Nat := 0
  trailLen      : Nat := 0
  /-- The outermost and the innermost claimed end of the length checks (R111, R114). -/
  outerClaim    : Option Nat := none
  innerClaim    : Option Nat := none
  /-- The end of a header, with no length check over it, that lies beyond the bytes present (R114). -/
  headEnd       : Option Nat := none
  deriving DecidableEq, Repr

/-- An object that a packet or an entry names: kind 0 next hop, 1 ECMP group, 2 edit record (R180). -/
structure ObjRef where
  kind : Nat
  id   : Nat
  deriving DecidableEq, Repr

/-- Where a host transmit frame came from (R360). -/
structure HostTx where
  fn      : Nat
  /-- The byte count of its descriptor in the host transmit ring. -/
  pos     : BitVec 64 := 0
  tsReq   : Bool
  stampId : BitVec 16
  deriving DecidableEq, Repr

/-- A frame selected for a sample copy: its number and the mode in force (R316). -/
structure Sample where
  frameNo : BitVec 32
  random  : Bool
  deriving DecidableEq, Repr

/-- A packet, or a copy of one, inside the device. -/
structure Pkt where
  id       : Nat
  /-- The number of the original that a copy was made of; an original's own number (R164). -/
  root     : Nat := 0
  /-- The length change that its edit record adds, fixed at lookup (R77). -/
  delta    : Int := 0
  /-- The ingress port; none for a frame of the host or of the Riwen engine. -/
  ingress  : Option Nat := none
  /-- The frame length, FCS included; provisional while `known` is clear (R187). -/
  len      : Nat := 0
  known    : Bool := true
  /-- The frame's bytes without the FCS, as far as they are present. -/
  data     : List Byte := []
  /-- The ingress stamp: whole nanoseconds, and the 16-bit fraction (Table 8-3). -/
  stampNs  : Nat := 0
  stampFrac : BitVec 16 := 0
  /-- STEP_SUM at ingress (R213). -/
  stepSum  : BitVec 32 := 0
  hv       : HdrVec := {}
  cls      : BitVec 4 := 0
  colour   : BitVec 2 := 0
  qidx     : BitVec 4 := 0
  egress   : Option Nat := none
  /-- 0 original, 1 to 16 mirror session 0 to 15, 17 host copy, 18 sample copy (Table 9-6). -/
  copy     : Nat := 0
  edit     : Option Nat := none
  objs     : List ObjRef := []
  /-- The flow hash f of R161. -/
  flow     : BitVec 32 := 0
  /-- The epoch-independent meter charge: region, meter index, and which buckets were charged (R246). -/
  meter    : Option (Nat × Nat × Bool × Bool) := none
  meterLen : Nat := 0
  /-- The charge made to each bucket, LEN_ADJ included, in bytes (R246). -/
  meterCharge : Int := 0
  ecnMark  : Bool := false
  /-- A mirror copy's truncated length (R318). -/
  trunc    : Option Nat := none
  charge   : Charge := {}
  /-- The granary cells drawn for its data, by number (R186). -/
  cells    : List Nat := []
  /-- The glacier block: pool and block number (R207). -/
  block    : Option (Nat × Nat) := none
  /-- The cells of a refilled packet have not received their data yet (R204). -/
  refilling : Bool := false
  /-- It may be sent by cut-through: the conditions of R92 held at its admission. -/
  ct       : Bool := false
  /-- The frame ended bad while the packet was already on its way: its reason (R95). -/
  badEnd   : Option (BitVec 8) := none
  hostTx   : Option HostTx := none
  sample   : Option Sample := none
  deriving DecidableEq, Repr

/-- The ingress decision on a frame that has not ended: what does not go on to admission waits for the end
(R114, R125). -/
structure Wait where
  pkt    : Pkt
  /-- 0 forward, 1 drop, 2 to the host. -/
  act    : Nat
  reason : Nat := 0
  code   : Nat := 0
  /-- The host code of a host copy. -/
  copy   : Option Nat := none
  /-- The drop was decided in the egress region (R382). -/
  far    : Bool := false
  deriving DecidableEq, Repr

/-- A trapped packet or host copy in the host path: its host code and its share of the path (R317, R359). -/
structure HostUnit where
  pkt    : Pkt
  code   : BitVec 8
  trap   : Bool
  reason : BitVec 8
  deriving DecidableEq, Repr

/-- The key of a tally entry (R295). -/
structure TKey where
  ingress : Nat
  /-- 0 to 1023 a port, 0x400 none, 0x7FF any. -/
  egress  : Nat
  cls     : BitVec 4
  disp    : Disp
  reason  : BitVec 8
  copy    : Nat
  overflow : Bool := false
  deriving DecidableEq, Repr

/-- A disposition that fell before its frame's end: its packet is folded, and the frame's bytes are owed to the entry (R294). -/
structure Owed where
  region : Nat
  key    : TKey
  /-- A mirror copy's truncated length. -/
  trunc  : Option Nat := none
  /-- The first beat of the period in which it fell. -/
  first  : BitVec 48
  deriving DecidableEq, Repr

/-- A frame in reception at a port. -/
structure Rx where
  pktId   : Nat
  stampNs : Nat
  stampFrac : BitVec 16 := 0
  stepSum : BitVec 32 := 0
  /-- Its delimiter crossed while a fence or a clock switch held: it is discarded (R384, R394). -/
  discard : Bool := false
  /-- A stop of RXCLK struck it: it is discarded whatever its row of Table 3-2 (R394). -/
  clkStopped : Bool := false
  /-- Its parse began before its end (R105): the decision. -/
  wait    : Option Wait := none
  maxFrame : Nat
  sample  : Option Sample := none
  owed    : List Owed := []
  deriving DecidableEq, Repr

/-- A frame in transmission at a port. -/
structure Tx where
  pkt      : Pkt
  qidx     : Nat
  /-- The transmit stamp: whole nanoseconds and the fraction. -/
  startNs  : Nat
  startFrac : BitVec 16 := 0
  /-- Its start instant s in picoseconds, and the close instant of an ordinary queue's gate at s (R240, R241). -/
  startPs  : Nat := 0
  close    : Option Nat := none
  /-- Its length was not known at selection, and the OVERHEAD that it was charged with (R233). -/
  provisional : Bool := false
  overhead : Int := 0
  /-- What was charged to the queue shaper and to the port shaper, in bytes; none when off (R233). -/
  chargedQ : Option Int := none
  chargedP : Option Int := none
  /-- The frame ended as a stomp after this many bytes, with its reason (R94). -/
  stomp    : Option (Nat × BitVec 8) := none
  /-- The port's MAX_FRAME at its start (R76). -/
  maxFrame : Nat := 0
  deriving DecidableEq, Repr

/-! ### Chapter 03, 06, 07, 09, 13: ports and queues -/

/-- The pause state of one priority (R83 to R88). -/
structure Pause where
  /-- The instant at which the timer of R83 reaches 0; this and the other instants here are picoseconds of the time base. -/
  until_    : Option Nat := none
  /-- Since when the priority has been paused without a break (the watchdog's accumulated time). -/
  since     : Nat := 0
  /-- The start of a watchdog recovery in progress. -/
  recovery  : Option Nat := none
  /-- The device holds the priority in XOFF (R86, R199). -/
  xoff      : Bool := false
  /-- When the last XOFF frame left; none while it waits for the end of a frame in transmission. -/
  xoffSent  : Option Nat := none
  deriving DecidableEq, Repr

/-- A frame that the MAC sends by itself, between data frames and ahead of every queued one (R86, R229, R413). -/
inductive MacFrame where
  /-- A pause frame, or a PFC frame for one priority, with its quanta. -/
  | pause (prio quanta : Nat)
  /-- A Riwen frame: TYPE, destination, payload. -/
  | riwen (typ dst : Nat) (payload : List Byte)
  /-- A BELL frame, whose payload tells of the time at which it leaves. -/
  | bell
  /-- A DELAY_RESP frame, whose payload ends with the time at which it leaves: destination, and what goes before. -/
  | delayResp (dst : Nat) (payload : List Byte)
  deriving DecidableEq, Repr

/-- A credit shaper (R232 to R234). -/
structure Shaper where
  en     : Bool := false
  rate   : BitVec 32 := 0
  burst  : BitVec 24 := 0x010000
  /-- Signed, in units of 2^-32 byte. -/
  credit : Int := 0
  deriving DecidableEq, Repr

/-- An entry of a gate list (Table 7-8). -/
structure GateEntry where
  states   : BitVec 16 := 0xFFFF
  interval : BitVec 32 := 0
  deriving DecidableEq, Repr

/-- A pending take-over (R237 to R239). -/
structure Takeover where
  at_     : Nat
  count   : Nat
  cycle   : Nat
  late    : Nat
  deriving DecidableEq, Repr

/-- The time gates of a port (R235 to R239, Table 7-9). -/
structure Gates where
  en          : Bool := false
  bank0       : Tab GateEntry := []
  bank1       : Tab GateEntry := []
  operBank    : Bool := false
  listActive  : Bool := false
  operCycle   : Nat := 0
  operCount   : Nat := 0
  /-- The take-over instant A of the operational list. -/
  operStart   : Nat := 0
  pending     : Option Takeover := none
  takeovers   : BitVec 32 := 0
  /-- The entry in force and the start of its cycle, as the last gate event left them. -/
  current     : Nat := 0
  cycleStart  : Nat := 0
  states      : BitVec 16 := 0xFFFF
  deriving DecidableEq, Repr

/-- A port, numbered by its lowest lane: Tables 3-7 to 3-10, 4-9, 5-14, 6-6, 7-4, 9-17, 9-18, 13-8. -/
structure Port where
  width      : BitVec 4 := 1
  adminUp    : Bool := false
  ctEnable   : Bool := false
  fcMode     : BitVec 2 := 0
  ctBase     : BitVec 7 := 1
  maxFrame   : BitVec 14 := 0x2400
  -- lane controller
  state      : LaneState := .disabled
  rate       : BitVec 3 := 0
  lastCause  : BitVec 8 := 0
  trainFails : Nat := 0
  failRate   : BitVec 3 := 0
  withdrawn  : BitVec 5 := 0
  /-- Alignment lock was reached in ALIGN, with a skew above 64 ns (Table 2-2). -/
  skewHigh   : Bool := false
  /-- The speed in Gb/s that the port last had in UP (R97). -/
  lastSpeed  : Option Nat := none
  -- cut-through and underrun
  ctThresh   : BitVec 7 := 1
  cleanCount : BitVec 17 := 0
  -- flow control
  wdTime     : BitVec 14 := 100
  wdRecovery : BitVec 10 := 10
  stormDrop  : Bool := false
  /-- 3 bits per queue, queue 0 lowest; q mod 8 at reset. -/
  prioMap    : BitVec 48 := 0xFAC688FAC688
  txQuanta   : BitVec 16 := 0xFFFF
  txRefresh  : BitVec 16 := 0x7FFF
  /-- PAUSE_SA, its first byte in bits [7:0] (network order, R18). -/
  pauseSa    : BitVec 48 := 0
  pause      : Tab Pause := []
  /-- MAC frames that wait for the end of the frame in transmission, in order. -/
  macQueue   : List MacFrame := []
  /-- The earliest picosecond of the next drop of a drain (R97). -/
  drainPs    : Nat := 0
  /-- Granary cells held by packets of this ingress port, by queue index; ING_CELLS sums them by priority (R199). -/
  ing        : Tab Nat := []
  -- stamps
  rxAdj      : BitVec 32 := 0
  txAdj      : BitVec 32 := 0
  laneDelay  : Tab Word := []
  delayValid : BitVec 8 := 0
  -- statistics
  mac        : Tab (BitVec 40) := []
  parserStat : Tab (BitVec 40) := []
  /-- The statistics of which both copies are lost (R385). -/
  macFrozen  : List Nat := []
  parserFrozen : List Nat := []
  -- parser settings
  startState : BitVec 8 := 0
  plAction   : BitVec 2 := 0
  keyProfile : BitVec 4 := 0
  defClass   : BitVec 4 := 0
  defQueue   : BitVec 4 := 0
  -- tables
  learnMode  : BitVec 2 := 0
  limitAct   : Bool := false
  missAct    : Bool := false
  pvid       : BitVec 12 := 1
  learnLimit : BitVec 21 := 0x1FFFFF
  atLimit    : Bool := false
  limitArmed : Bool := true
  -- buffers
  portReserve : BitVec 14 := 40
  portUsed    : Nat := 0
  lossless   : BitVec 8 := 0
  xoffTh     : BitVec 20 := 1024
  xonTh      : BitVec 20 := 768
  -- scheduling
  overhead   : BitVec 7 := 20
  shaper     : Shaper := {}
  guardBand  : BitVec 24 := 0
  sampleQEn  : Bool := false
  sampleJ    : BitVec 5 := 20
  sampleSeq  : BitVec 32 := 0
  /-- The last instant sampled (R249). -/
  sampleAt   : Option Nat := none
  vOrdinary  : BitVec 32 := 0
  vExpress   : BitVec 32 := 0
  gates      : Gates := {}
  rx         : Option Rx := none
  tx         : Option Tx := none
  -- rate meter
  window     : BitVec 16 := 1000
  rateEn     : Bool := false
  /-- A whole window has not begun yet: the current window is partial. -/
  ratePartial : Bool := true
  rateValid  : Bool := false
  rateFirst  : BitVec 48 := 0
  rateRun    : List (BitVec 64) := [0, 0, 0, 0]
  rateLatch  : List (BitVec 64) := [0, 0, 0, 0]
  rateLatchWindow : BitVec 16 := 1000
  rateLatchFirst : BitVec 48 := 0
  -- sampling
  nMinus1    : BitVec 24 := 0
  sampleEn   : Bool := false
  sampleRnd  : Bool := false
  frameNo    : BitVec 32 := 0
  -- conservation
  received   : BitVec 64 := 0
  receivedBytes : BitVec 64 := 0
  openStart  : Nat := 0
  cum        : List (BitVec 64) := [0, 0, 0, 0, 0, 0, 0, 0]
  bytesWrapped : Bool := false
  /-- Both copies of its totals are lost (R385). -/
  cumFrozen  : Bool := false
  absentPeriods : BitVec 31 := 0
  imbalanced : BitVec 32 := 0
  lastChecked : BitVec 48 := 0
  /-- Packets and bytes of this ingress port held on the other die (R296). -/
  crossPkts  : Nat := 0
  crossBytes : Nat := 0
  -- faults
  degraded   : Bool := false
  badWin     : Nat := 0
  /-- An injection struck a codeword of the present run of bad windows (R401). -/
  fecHit     : Bool := false
  goodWin    : Nat := 0
  /-- A frame of the FEC window in progress met an uncorrected codeword (R71). -/
  uncorrSeen : Bool := false
  -- parish
  riwenEn    : Bool := false
  portRole   : BitVec 3 := 0
  alarmEn    : Bool := false
  alarmHops  : BitVec 2 := 1
  riwenQueue : BitVec 4 := 15
  alarmSeq   : BitVec 16 := 0
  /-- A fault of this port is being alarmed: 0 link fault, 1 degraded. -/
  alarming   : Option Nat := none
  /-- How often the current alarm has been sent again, and how often STATE 0 has been sent for it. -/
  alarmReps  : Nat := 0
  alarmUps   : Nat := 0
  /-- The origins (device, port) whose down alarms make the port REMOTE_DOWN, with the beat of the last one. -/
  remoteDown : List (Nat × Nat × Nat) := []
  deriving DecidableEq, Repr

/-- A queue of a port: Tables 6-7, 6-11, 7-5, 7-10. -/
structure Queue where
  reserve     : BitVec 12 := 4
  alpha       : BitVec 4 := 6
  spillEn     : Bool := true
  spillThresh : BitVec 20 := 2048
  refillTarget : BitVec 16 := 1024
  lifetime    : BitVec 15 := 1000
  wredGreen   : BitVec 6 := 0
  wredYellow  : BitVec 6 := 0
  wredRed     : BitVec 6 := 0
  wredW       : BitVec 4 := 0
  weight      : BitVec 10 := 128
  shaper      : Shaper := {}
  -- run state
  granary     : List Pkt := []
  glacier     : List Pkt := []
  spilling    : Bool := false
  /-- Cells held, by pool, and GR_DEPTH (a selected packet's cells included until they return). -/
  reserveUsed : Nat := 0
  sharedHeld  : Nat := 0
  grDepth     : Nat := 0
  avg         : BitVec 32 := 0
  peak        : BitVec 20 := 0
  spilled     : C48 := {}
  ecnMarked   : C48 := {}
  headF       : Option (BitVec 32) := none
  /-- The head failed the fit check and was counted (R242), or was reported as never fitting (R243). -/
  deferred    : Bool := false
  noFit       : Bool := false
  hist        : Tab (BitVec 48) := []
  /-- The bins of which both copies are lost (R385). -/
  histFrozen  : List Nat := []
  deriving DecidableEq, Repr

/-! ### Chapter 04: parsing and classification -/

/-- One extraction of a parse state (R108). -/
structure Extract where
  srcOff : BitVec 6 := 0
  width  : BitVec 2 := 0
  cont   : BitVec 6 := 0
  shift  : BitVec 4 := 0
  mask   : BitVec 16 := 0
  deriving DecidableEq, Repr

/-- A parse state (Table 4-10). -/
structure PState where
  htype     : BitVec 8 := 0
  lenMode   : Bool := false
  lenFixed  : BitVec 10 := 0
  lenOff    : BitVec 6 := 0
  lenWide   : Bool := false
  lenMask   : BitVec 16 := 0
  lenRshift : BitVec 4 := 0
  lenLshift : BitVec 2 := 0
  lenAdd    : BitVec 10 := 0
  minLen    : BitVec 10 := 0
  lenCheck  : BitVec 2 := 0
  setFlags  : BitVec 8 := 0
  profile   : BitVec 4 := 0
  profileEn : Bool := false
  csum      : Bool := false
  sel0Off   : BitVec 6 := 0
  sel0En    : Bool := false
  sel1Off   : BitVec 6 := 0
  sel1En    : Bool := false
  defNext   : BitVec 8 := 0
  tCount    : BitVec 5 := 0
  tBase     : BitVec 11 := 0
  /-- Extractions by number, the unused ones left out. -/
  extracts  : Tab Extract := []
  deriving DecidableEq, Repr

/-- A transition entry (Table 4-11). -/
structure PTrans where
  value    : Word := 0
  mask     : Word := 0
  next     : BitVec 8 := 0
  setFlags : BitVec 8 := 0
  valid    : Bool := false
  deriving DecidableEq, Repr

/-- A payload pattern (Table 4-12), byte 0 in the lowest bits of value and mask. -/
structure Pattern where
  len      : BitVec 5 := 0
  floating : Bool := false
  startMin : BitVec 8 := 0
  startMax : BitVec 8 := 0
  value    : BitVec 128 := 0
  mask     : BitVec 128 := 0
  deriving DecidableEq, Repr

/-- A range comparator (Table 4-13). -/
structure Range where
  source : BitVec 6 := 0
  enable : Bool := false
  low    : BitVec 16 := 0
  high   : BitVec 16 := 0
  deriving DecidableEq, Repr

/-- A rule's value, mask and action set, as RULE_WRITE's words 2 to 45 give them (Table 4-15). -/
structure Rule where
  value   : BitVec 640
  mask    : BitVec 640
  act0    : Word
  act1    : Word
  act2    : Word
  hits    : C48 := {}
  deriving DecidableEq, Repr

/-- A change of a parsing object that is staged under an epoch slot (R126, R168). -/
inductive ParseChange where
  | portCfg (port : Nat) (word : Word)
  | pstate (idx : Nat) (st : PState)
  | ptrans (idx : Nat) (tr : PTrans)
  | pattern (mask : BitVec 4) (idx : Nat) (p : Pattern)
  | range (mask : BitVec 4) (idx : Nat) (r : Range)
  | profile (mask : BitVec 4) (idx : Nat) (slots : List Byte)
  | rule (mask : BitVec 4) (idx : Nat) (r : Option Rule)
  | emProfile (idx : Nat) (w2 w3 w4 : Word)
  deriving DecidableEq, Repr

/-- The classification store of one region. -/
structure ClassRegion where
  patterns : Tab Pattern := []
  ranges   : Tab Range := []
  /-- Key profiles by number: 28 slot bytes; an unlisted one is at its reset content (R120). -/
  profiles : Tab (List Byte) := []
  rules    : Tab Rule := []
  deriving DecidableEq, Repr

/-! ### Chapter 05: tables -/

/-- An entry of the exact-match table (Table 5-3) or of a pool (R154, R155); in a pool `key` is the
encoded key and `klen` the length it encodes. -/
structure Ent where
  kt     : BitVec 4 := 0
  klen   : Nat := 0
  key    : BitVec 129 := 0
  ftype  : BitVec 2 := 0
  fid    : BitVec 20 := 0
  cls    : BitVec 16 := 0
  moving : Bool := false
  /-- HIT, one bit per region copy. -/
  hit    : BitVec 4 := 0
  age    : BitVec 2 := 0
  static : Bool := false
  route  : Bool := false
  /-- 0 live, 1 staged add, 2 staged delete. -/
  stage  : BitVec 2 := 0
  slot   : Bool := false
  deriving DecidableEq, Repr

/-- A hash table with its stash: entries by location (bucket x 4 + slot) and by stash index. -/
structure HTable where
  locs  : Tab Ent := []
  stash : Tab Ent := []
  deriving DecidableEq, Repr

/-- A direct entry (R153); the direct table is computed from the committed prefixes (`State.direct`). -/
structure Dir where
  result : Word := 0
  lenMask : BitVec 16 := 0
  srcLen : BitVec 5 := 0
  deriving DecidableEq, Repr

/-- A short prefix in the shadow store (R157); `result` is none for a deletion. -/
structure Shadow where
  plen   : Nat
  bits   : BitVec 16
  result : Option Word
  /-- The epoch slot while the change is staged, and whether it replaces a present one. -/
  staged : Option Bool := none
  deriving DecidableEq, Repr

/-- A default-route register with the change staged for it, if any (R153, R168). -/
structure DefRoute where
  live   : Option Word := none
  staged : Option (Bool × Option Word) := none
  deriving DecidableEq, Repr

/-- One address family's prefix tables. -/
structure Lpm where
  pool    : HTable := {}
  /-- The committed prefixes of length 1 to 16: (length x 65536 + bits) to RESULT. -/
  short   : Tab Word := []
  shadow  : Tab Shadow := []
  defRoute : DefRoute := {}
  /-- The lengths assigned to the family's 16 length tables, by table number (IPv6). -/
  lengths : Tab Nat := []
  deriving DecidableEq, Repr

/-- The stage marks of an object or slot. -/
structure Mark where
  stage : BitVec 2 := 0
  slot  : Bool := false
  deriving DecidableEq, Repr

/-- The content of a table object: the parameter words 2 onward of TBL_OBJ_WRITE (Tables 5-11, 5-12). -/
structure Obj where
  words    : List Word
  mark     : Mark := {}
  /-- The beat of the delete's commit, while PENDING_FREE (Table 5-13). -/
  freeing  : Option (BitVec 48) := none
  deriving DecidableEq, Repr

/-- A member slot of the ECMP store, with the change staged for it. -/
structure Member where
  hop    : BitVec 17 := 0
  valid  : Bool := false
  staged : Option (Bool × BitVec 17 × Bool) := none
  deriving DecidableEq, Repr

/-- An exact-match key profile (Table 5-8). -/
structure EmProfile where
  kt   : BitVec 2 := 0
  a    : BitVec 6 := 0
  b    : BitVec 6 := 0
  c    : BitVec 6 := 0
  d    : BitVec 6 := 0
  e    : BitVec 6 := 0
  deriving DecidableEq, Repr

/-- A learn request (R148). -/
structure LearnReq where
  kt   : BitVec 4
  key  : BitVec 129
  port : Nat
  deriving DecidableEq, Repr

/-- An iteration cursor (R172). -/
structure Cursor where
  /-- The location to visit next. -/
  next   : Nat := 0
  /-- Entries moved from unvisited to visited places, and the other way. -/
  carry  : List Ent := []
  skip   : List Ent := []
  overflow : Bool := false
  deriving DecidableEq, Repr

/-- A flush task in progress (R173): its port, its match, the entries deleted so far, its command. -/
structure Flush where
  port   : Nat
  statics : Bool
  vid    : Option (BitVec 12)
  count  : Nat := 0
  cmd    : Cmd
  deriving DecidableEq, Repr

/-- A region's table copy: on its own copy, or borrowing while the copy is rebuilt (R174, R175). -/
structure CopyState where
  borrowFrom : Option Nat := none
  /-- The copy is being rebuilt: the detection that began it; none for the rebuild of a returning die's copies (R445). -/
  rebuilding : Option (Option DetMark) := none
  /-- The words of the copy that are lost, until it is rebuilt. -/
  badWords   : List Nat := []
  /-- The ns of the last lookup, and the lookups made in it (R387). -/
  lookNs     : Nat := 0
  lookCount  : Nat := 0
  learnQ     : List LearnReq := []
  /-- The notify filter: keys with the beat at which they may be reported again, oldest first (R150). -/
  notify     : List (BitVec 4 × BitVec 129 × Nat) := []
  deriving DecidableEq, Repr

/-- The state of an epoch (R353). -/
inductive EpochState where
  | idle | staging | scheduled | cleaning
  deriving DecidableEq, Repr

/-- An epoch that is not IDLE. -/
structure Epoch where
  epoch   : BitVec 16
  state   : EpochState
  /-- The epoch slot; none where a prepared epoch has no staged change (R169, R421). -/
  slot    : Option Bool
  changes : Nat := 0
  thaw    : BitVec 48 := 0
  /-- Held prepared by the parish activation (R421). -/
  prepared : Bool := false
  /-- The thaw beat of the COMMIT that it took (R425). -/
  committed : Option (BitVec 48) := none
  deriving DecidableEq, Repr

/-- The table engine of chapter 05. -/
structure Tables where
  profile   : BitVec 2 := 0
  seed0     : Word := 0
  seed1     : Word := 0
  em        : HTable := {}
  v4        : Lpm := {}
  v6        : Lpm := {}
  hops      : Tab Obj := []
  groups    : Tab Obj := []
  edits     : Tab Obj := []
  members   : Tab Member := []
  emProfiles : Tab EmProfile := []
  agePeriod : BitVec 24 := 60000
  notifyHold : BitVec 16 := 1000
  ecmpSeed  : Word := 0
  ecmpFields : BitVec 64 := 0x3FFFF200
  tsn       : C48 := {}
  learnDiscards : C48 := {}
  limitHits : C48 := {}
  macMoves  : C48 := {}
  saConflict : C48 := {}
  eccCorrected : C48 := {}
  stashArmed : Bool := true
  /-- The beat in which LEARN_TABLE_FULL was last raised. -/
  fullBeat  : Option Nat := none
  /-- Cursors by table x 4 + number. -/
  cursors   : Tab Cursor := []
  flushes   : List Flush := []
  copies    : Tab CopyState := []
  /-- The AGE sweep in progress: the entries that it has visited, by KEY_TYPE and KEY. -/
  sweep     : Option (List (BitVec 4 × BitVec 129)) := none
  deriving DecidableEq, Repr

/-- The parse graph and classification stores, with what is staged for them. -/
structure Parse where
  states  : Tab PState := []
  trans   : Tab PTrans := []
  regions : Tab ClassRegion := []
  staged  : List (Bool × ParseChange) := []
  deriving DecidableEq, Repr

/-! ### Chapter 06: buffers -/

/-- A WRED profile (Table 6-8). -/
structure Wred where
  minTh : BitVec 24 := 0
  maxTh : BitVec 24 := 0
  maxP  : BitVec 9 := 0
  ecn   : Bool := false
  ecnOver : Bool := false
  deriving DecidableEq, Repr

/-- A queue link, head or tail word of which one copy holds an error: the other copy is whole (R383). -/
structure LinkCopy where
  addr  : Word
  /-- The copy that holds the error, and how many of its bits do. -/
  second : Bool
  flips : Nat
  deriving DecidableEq, Repr

/-- A region's buffer state (Tables 6-1, 6-5, 6-10). -/
structure Region where
  refillReserve : BitVec 16 := 4096
  headroom  : BitVec 16 := 0
  lfsr      : BitVec 32 := 1
  /-- The seed that BUF_REGION_CONFIG gave the WRED LFSR, with which it starts again. -/
  seed      : BitVec 32 := 1
  refillUsed : Nat := 0
  headroomUsed : Nat := 0
  sharedUsed : Nat := 0
  /-- Cells retired after a failed test, by number (R382). -/
  retired   : Tab Unit := []
  wred      : Tab Wred := []
  /-- The round-robin pointers of the express, ordinary and refill ranks (R194). -/
  ptrExpress : Nat := 0
  ptrOrdinary : Nat := 0
  ptrRefill : Nat := 0
  /-- The beat of the last BUF_SHARED_EXHAUSTED (R195). -/
  exhaustBeat : Option Nat := none
  sampleLfsr : BitVec 32 := 1
  /-- SAMPLE_SEED (Table 9-18): what the sampling LFSR begins from. -/
  sampleSeed : BitVec 32 := 1
  seq       : BitVec 64 := 0
  /-- Lost allocator counts that are being recomputed; the twin serves (R385). -/
  recount   : List DetMark := []
  /-- The link words of which one copy holds an error (R383). -/
  badLinks  : List LinkCopy := []
  /-- PIPE alternation of each port block, by block number (R23). -/
  dispatch  : Tab Bool := []
  /-- The cell list that the allocator's rotation comes to next, and the cells out of their lists (R186). -/
  rotation  : Nat := 0
  drawn     : Tab Unit := []
  deriving DecidableEq, Repr

/-- A glacier pool of a die (R206 to R209). -/
structure Pool where
  /-- Free blocks. -/
  free      : Nat
  /-- Pointers in the on-chip cache and in the stack, and those that waiting requests will take from a fetch (R208). -/
  cache     : Nat := 4096
  stack     : Nat
  owed      : Nat := 0
  /-- Allocated blocks by number. -/
  allocated : Tab Unit := []
  /-- Freed or never used pointers are handed out from here first, then from `fresh` upward. -/
  freed     : List Nat := []
  fresh     : Nat := 0
  fetching  : Bool := false
  writing   : Bool := false
  emptyBeat : Option Nat := none
  deriving DecidableEq, Repr

/-- A glacier requester (R210): one per region and class. -/
structure Quota where
  reserve : BitVec 15 := 256
  limit   : BitVec 15 := 16384
  used    : Nat := 0
  quotaBeat : Option Nat := none
  deriving DecidableEq, Repr

/-- A die's glacier (R206 to R211). -/
structure Glacier where
  pools   : List Pool :=
    [{ free := 8388608, stack := 8384512 }, { free := 3145728, stack := 3141632 }, { free := 614400, stack := 610304 },
      { free := 393216, stack := 389120 }]
  doubleFrees : BitVec 16 := 0
  spillCredit : Nat := 2097152
  refillCredit : Nat := 2097152
  /-- The time base value up to which the credits have been raised. -/
  creditNs : Nat := 0
  /-- The half byte by which the credits have risen beyond whole bytes (R211). -/
  creditHalf : Bool := false
  failed  : Bool := false
  /-- Packets left unreachable by a broken descriptor or a failed stack, until the audit (R386). -/
  orphans : List Pkt := []
  /-- The detections that wait for the audit. -/
  audits  : List DetMark := []
  deriving DecidableEq, Repr

/-- A meter (Table 7-11). -/
structure Meter where
  mode    : BitVec 2 := 0
  aware   : Bool := false
  redMark : Bool := false
  coupled : Bool := false
  lenAdj  : BitVec 7 := 0
  cir     : BitVec 32 := 0
  cbs     : BitVec 24 := 0
  eir     : BitVec 32 := 0
  ebs     : BitVec 24 := 0
  /-- Signed buckets in units of 2^-32 byte. -/
  tokC    : Int := 0
  tokE    : Int := 0
  green   : C48 := {}
  yellow  : C48 := {}
  red     : C48 := {}
  deriving DecidableEq, Repr

/-! ### Chapter 08: time -/

/-- The time states of Table 8-2. -/
inductive TimeState where
  | unset | freerun | acquiring | locked | holdover
  deriving DecidableEq, Repr

/-- The time base and the bell (Tables 8-2, 8-5, 8-6, 8-9). -/
structure Time where
  ns        : Nat := 0
  /-- The 48-bit fraction of a nanosecond. -/
  frac      : BitVec 48 := 0
  /-- FREQ_ADJ in units of 2^-48. -/
  freqAdj   : Int := 0
  state     : TimeState := .unset
  source    : BitVec 3 := 0
  refEn     : Bool := false
  stepEn    : Bool := true
  ppsFall   : Bool := false
  servoBw   : BitVec 2 := 1
  slewMax   : BitVec 8 := 100
  lockThresh : BitVec 16 := 50
  srcTimeout : BitVec 8 := 20
  holdAvg   : BitVec 8 := 60
  stepLimit : BitVec 30 := 100000
  asymAdj   : BitVec 16 := 0
  settle    : BitVec 8 := 2
  /-- BEATS_PER_SECOND in force. -/
  beats     : BitVec 14 := 1000
  bellGen   : BitVec 8 := 0
  beat      : BitVec 48 := 0
  /-- A change of B that waits for the next whole second: the new B, and the generation a bell frame carries. -/
  pendingB  : Option (BitVec 14 × Option (BitVec 8)) := none
  phaseValid : Bool := false
  labelled  : Bool := false
  upHoldover : Bool := false
  /-- The last measured offset (time base minus reference), in whole nanoseconds. -/
  offset    : Int := 0
  steps     : BitVec 16 := 0
  ppsRejects : BitVec 16 := 0
  /-- What is still to be slewed, in units of 2^-48 ns. -/
  slewLeft  : Int := 0
  /-- A label waiting for its edge: the second, and the instant it was given. -/
  ppsLabel  : Option (Nat × Nat) := none
  /-- The second of the last edge measured after a label, and its captured instant in units of 1/8 ns; whether lock has been reached
  on the PPS since (R271). -/
  ppsLast   : Option (Nat × Nat) := none
  ppsLocked : Bool := false
  /-- The instant of the last valid measurement (R277). -/
  measured  : Nat := 0
  within    : Nat := 0
  beyond    : Nat := 0
  master    : Option (BitVec 64) := none
  settleFrom : Option Nat := none
  firstAcq  : Bool := true
  holdSince : Option Nat := none
  /-- The time spent in LOCKED, newest first: how long, and under which FREQ_ADJ; and the start of the stretch that runs now (R278). -/
  freqHist  : List (Nat × Int) := []
  lockFrom  : Option Nat := none
  stepSum   : BitVec 32 := 0
  /-- The sum of every step, in units of 2^-48 ns: the instants from which a time is measured are kept without the steps. -/
  shift     : Int := 0
  /-- The beat boundaries so far: what lasts a number of beats is counted by them, whatever a step or a change of B makes of the beat
  numbers. -/
  beatRun   : Nat := 0
  deriving DecidableEq, Repr

/-! ### Chapter 09: tallies and telemetry -/

/-- A tally entry. -/
structure TEnt where
  key     : TKey
  packets : BitVec 64 := 0
  bytes   : BitVec 64 := 0
  deriving DecidableEq, Repr

/-- The two tally banks of a region. -/
structure Bank where
  cur     : List TEnt := []
  prev    : List TEnt := []
  fullRaised : Bool := false
  deriving DecidableEq, Repr

/-- A closed or closing tally period (R297, R298). -/
structure Period where
  first   : BitVec 48
  last    : BitVec 48
  gen     : BitVec 8
  stepped : Bool := false
  merged  : Bool := false
  /-- RECEIVED, its bytes, OPEN at start and at end, by port. -/
  recv    : Tab (BitVec 64 × BitVec 64 × Nat × Nat) := []
  closed  : Bool := false
  westAbsent : Bool := false
  eastAbsent : Bool := false
  /-- The closing boundary: whole nanoseconds and the fraction. -/
  ns      : Nat := 0
  frac    : BitVec 16 := 0
  /-- HIST_SHIFT of the period, and its bins by queue. -/
  shift   : BitVec 5 := 8
  hist    : Tab (Tab (BitVec 48)) := []
  /-- The conservation check was made. -/
  checked : Bool := false
  deriving DecidableEq, Repr

/-- A unit waiting to be written to a dump or host ring: its header words and its body (R302, R305). -/
structure DumpUnit where
  stream : Nat
  source : Nat
  seq    : BitVec 64
  words  : List Word
  deriving DecidableEq, Repr

/-- A ring in host memory (R303, R337, R338). -/
structure Ring where
  en       : Bool := false
  fn       : Nat := 0
  sizeLog2 : BitVec 5 := 0
  base     : BitVec 64 := 0
  ctrl     : BitVec 64 := 0
  producer : BitVec 64 := 0
  consumer : BitVec 64 := 0
  dropped  : BitVec 64 := 0
  errRaised : Bool := false
  deriving DecidableEq, Repr

/-- A performance counter (Table 9-16, R310, R311). -/
structure Perf where
  event   : BitVec 10 := 0
  enable  : Bool := false
  owner   : BitVec 4 := 0
  ownerEn : Bool := false
  privMask : BitVec 4 := 0xF
  chanMask : BitVec 4 := 0xF
  fnMask  : BitVec 16 := 0xFFFF
  clsMask : BitVec 16 := 0xFFFF
  addrEn  : Bool := false
  addrLow : Word := 0
  addrHigh : Word := 0
  count   : C48 := {}
  /-- Words 1 to 5 of the PC_CONFIG that waits for the next beat boundary. -/
  staged  : Option (List Word) := none
  deriving DecidableEq, Repr

/-- A mirror session (Table 9-19). -/
structure Mirror where
  port    : BitVec 10 := 0
  queue   : BitVec 4 := 0
  enable  : Bool := false
  truncEn : Bool := false
  truncLen : BitVec 14 := 64
  deriving DecidableEq, Repr

/-- The telemetry of chapter 09. -/
structure Tally where
  periodLog2 : BitVec 5 := 10
  newLog2   : Option (BitVec 5) := none
  summaryEn : Bool := false
  /-- The accounts of deleted ports (R300, R315). -/
  gone      : Tab Port := []
  histShift : BitVec 5 := 8
  newShift  : Option (BitVec 5) := none
  histEn    : Bool := true
  pcDumpLog2 : BitVec 8 := 0
  banks     : Tab Bank := []
  /-- The first beat of the period in progress, and its end boundary. -/
  first     : BitVec 48 := 0
  endBeat   : BitVec 48 := 1024
  stepped   : Bool := false
  merging   : Bool := false
  /-- The period whose bank has been switched out: it waits for its close, check and dumps. -/
  prev      : Option Period := none
  /-- The bell generation in which the period in progress began. -/
  gen       : BitVec 8 := 0
  /-- Port numbers deleted in the period in progress (R300). -/
  deleted   : Tab Unit := []
  /-- The dies that the period in progress marks absent, and those whose return makes the next period absent (R300). -/
  westGone  : Bool := false
  eastGone  : Bool := false
  westBack  : Bool := false
  eastBack  : Bool := false
  /-- The first beat that the next PERF unit covers, and whether a step falls into its range. -/
  pcFirst   : Nat := 0
  pcStepped : Bool := false
  /-- The bell generation of that range. -/
  pcGen     : BitVec 8 := 0
  /-- The bins of queues whose ports were deleted in the period in progress (R308). -/
  histGone  : Tab (Tab (BitVec 48)) := []
  rings     : Tab Ring := []
  /-- UNIT_SEQ by stream x 8 + source (0 package, 1 to 4 regions). -/
  unitSeq   : Tab (BitVec 64) := []
  units     : List DumpUnit := []
  /-- Units of a lossy stream lost in the current beat, by stream x 8 + source. -/
  lostUnits : Tab Nat := []
  perf      : Tab Perf := []
  mirrors   : Tab Mirror := []
  /-- The host path by function, oldest first (R317, R359). -/
  hostPath  : Tab (List HostUnit) := []
  deriving DecidableEq, Repr

/-! ### Chapter 10: the command interface -/

/-- A reply (Table 10-4). -/
structure Reply where
  src    : Sender
  queue  : BitVec 4
  tag    : BitVec 12
  opcode : BitVec 16
  status : BitVec 8
  late   : Bool := false
  crc    : Bool := false
  beat   : Word
  echo   : Word
  words  : List Word := []
  deriving DecidableEq, Repr

/-- Where an accepted command stands. -/
inductive Phase where
  /-- In its queue, not handed to its steward yet. -/
  | waiting
  /-- In the scheduled-command store, waiting for this beat (R351). -/
  | stored (beat : BitVec 48)
  /-- In the central steward's hold queue during a live patch (R374). -/
  | held
  /-- Handed to its executing steward. -/
  | running
  /-- Forwarded into the parish (R418) under this tag. -/
  | forwarded (ftag : Nat) (resends : Nat)
  /-- It has taken effect, failed, or been rejected: its final reply is ready. -/
  | done
  deriving DecidableEq, Repr

/-- A command in flight (R345), in the order of acceptance. -/
structure Flight where
  cmd   : Cmd
  priv  : Nat
  /-- The command ring that it came from, on PCIe. -/
  ring  : BitVec 4 := 0
  phase : Phase := .waiting
  /-- It failed a check on arrival: it only waits for its reply's turn. -/
  rejected : Bool := false
  late  : Bool := false
  reply : Option Reply := none
  /-- Its function was reset: its reply is discarded (R444). -/
  discard : Bool := false
  /-- A PENDING reply that is to be written first (R351). -/
  pending : Option Reply := none
  deriving DecidableEq, Repr

/-- A command ring or a reply ring of a PCIe function. -/
structure CRing where
  en       : Bool := false
  sizeLog2 : BitVec 5 := 12
  base     : BitVec 64 := 0
  ctrl     : BitVec 64 := 0
  /-- The reply ring that a command ring is mapped to. -/
  replyQ   : BitVec 4 := 0
  producer : BitVec 64 := 0
  consumer : BitVec 64 := 0
  stopped  : Bool := false
  /-- The replies that found no room and are held, each with its queue: while there is one, no command queue mapped to the reply ring is fetched
  from (R338). -/
  blocked  : List (Nat × Reply) := []
  deriving DecidableEq, Repr

/-- A PCIe function: BAR0 (Table 10-6), rings, and the host rings. -/
structure Func where
  doorbells : Tab (BitVec 64) := []
  hostDoorbell : BitVec 64 := 0
  adminCmdBase : BitVec 64 := 0
  adminCmdCtrl : BitVec 64 := 0
  adminCmdEn : Bool := false
  adminCmdSize : BitVec 5 := 12
  adminRplBase : BitVec 64 := 0
  adminRplCtrl : BitVec 64 := 0
  adminRplEn : Bool := false
  adminRplSize : BitVec 5 := 12
  /-- An ADMIN register write broke a constraint (Table 10-6). -/
  regStopped : Bool := false
  cmdRings  : Tab CRing := []
  rplRings  : Tab CRing := []
  /-- When each vector last sent an MSI-X message (R338). -/
  msixAt    : Tab Nat := []
  /-- Vectors with an advance that the next message covers. -/
  msixPend  : Tab Unit := []
  hostRx    : Ring := {}
  hostTx    : Ring := {}
  deriving DecidableEq, Repr

/-- The rights of a virtual function (1 to 15) or of the management bus (16) (R329). -/
structure Rights where
  config : Bool := false
  map    : BitVec 1024 := 0
  deriving DecidableEq, Repr

/-- A mailbox of the management bus (R340 to R342). -/
structure Mailbox where
  entries : Tab (List Byte) := []
  wptr    : BitVec 9 := 0
  rptr    : BitVec 9 := 0
  /-- The last entry that the bus read, or 64 zero bytes. -/
  last    : List Byte := List.replicate 64 0
  /-- The pointers at the start of the ACLK cycle of the last read (R341, R342). -/
  startW  : BitVec 9 := 0
  startR  : BitVec 9 := 0
  underrun : Bool := false
  overrun : Bool := false
  levelHit : Bool := false
  level   : BitVec 9 := 0
  intEn   : Bool := false
  deriving DecidableEq, Repr

/-- An event record (Table 10-8). -/
structure EvRec where
  code    : Nat
  source  : Nat
  gen     : BitVec 8
  seq     : BitVec 32
  beat    : BitVec 48
  ns      : Nat
  frac    : BitVec 16
  payload : List Word
  deriving DecidableEq, Repr

/-- An event destination: 0 to 15 functions, 16 the management bus, 17 the manager (R356). -/
structure EvDest where
  mask : BitVec 14 := 0
  ring : Ring := {}
  deriving DecidableEq, Repr

/-- What a source holds for a destination (R357). -/
structure EvHold where
  seq   : BitVec 32 := 0
  held  : List EvRec := []
  lost  : BitVec 32 := 0
  firstLost : BitVec 32 := 0
  deriving DecidableEq, Repr

/-- The command interface. -/
structure CmdIf where
  flights : List Flight := []
  /-- The queue whose turn it is in the round robin of R347. -/
  nextTurn : Nat := 0
  /-- Results of commands that took effect, until COMMAND_COMPLETE makes the final reply. -/
  results : List Reply := []
  funcs   : Tab Func := []
  rights  : Tab Rights := []
  mgmtPriv : BitVec 2 := 3
  dests   : Tab EvDest := []
  /-- By source x 32 + destination. -/
  holds   : Tab EvHold := []
  codeMap : Tab (BitVec 4) := []
  epochs  : List Epoch := []
  ignoredWrites : BitVec 32 := 0
  pcieUp  : Bool := false
  deriving DecidableEq, Repr

/-! ### Chapter 11: stewards -/

/-- The states of a steward (Table 11-8). -/
inductive StewState where
  | reset | loading | running | quiescing | patching | faulted
  deriving DecidableEq, Repr

/-- A Fliric image as the device holds it once it is accepted (R366). -/
structure Image where
  kind    : Nat := 0
  version : Word := 0
  level   : BitVec 8 := 0
  taskFmt : BitVec 8 := 0
  /-- The microwords from address 0, and the dispatch table. -/
  words   : List (BitVec 160) := []
  dispatch : List (BitVec 14) := []
  digest  : BitVec 64 := 0
  deriving DecidableEq, Repr

/-- The micro-state of an engine (R369). -/
structure Micro where
  pc      : BitVec 14 := 0
  scratch : List (BitVec 64) := List.replicate 16 0
  loops   : List (BitVec 16) := List.replicate 4 0
  /-- What the last test of each loop counter found: it had come to 0 (LOOP_OP 3). -/
  loopDone : BitVec 4 := 0
  flags   : BitVec 8 := 0
  stack   : List (BitVec 14) := []
  /-- The command in hand: sender, tag and queue. -/
  inHand  : Option (Sender × BitVec 12 × BitVec 4) := none
  /-- The internal task in hand. -/
  task    : Option Nat := none
  deriving DecidableEq, Repr

/-- An access that a microword puts on a unit (MEM_OP and MEM_UNIT of Table 11-2). -/
structure MicroAccess where
  op   : Nat
  unit : Nat
  addr : BitVec 64
  data : BitVec 64
  deriving DecidableEq, Repr

/-- What microwords put together and hand out beside the engine's own registers (Table 11-2). -/
structure MicroIo where
  /-- ALU_DEST 17, and the reply that REPLY_OP builds from it: its status and words, and the one last sent. -/
  replyWord : BitVec 64 := 0
  status    : BitVec 8 := 0
  reply     : List (BitVec 64) := []
  sent      : Option (BitVec 8 × List (BitVec 64)) := none
  /-- The payload that EVENT_OP appends to, and the one last raised. -/
  event     : List (BitVec 64) := []
  raised    : Option (List (BitVec 64)) := none
  /-- The last access. -/
  access    : Option MicroAccess := none
  /-- The special destinations 20 to 31. -/
  special   : List (BitVec 64) := List.replicate 12 0
  deriving DecidableEq, Repr

/-- A trace entry (Table 11-10). -/
structure TraceEnt where
  pc   : BitVec 14
  kind : BitVec 3
  tag  : BitVec 12
  time : Word
  deriving DecidableEq, Repr

/-- A steward engine (Tables 11-1, 11-8). -/
structure Steward where
  state   : StewState := .reset
  image   : Image := {}
  /-- Control-store words that differ from the image: injected or damaged, by address. -/
  damaged : Tab (BitVec 160) := []
  micro   : Micro := {}
  /-- The address that the next memory operation names, and the data of the last one (Table 11-2). -/
  memAddr : BitVec 64 := 0
  memData : BitVec 64 := 0
  io      : MicroIo := {}
  /-- The access of the microword at the micro-PC is not complete (R363). -/
  stalled : Bool := false
  /-- The internal tasks that a YIELD has suspended, and what the task in hand was at its last YIELD. -/
  tasks   : List Micro := []
  lastYield : Option Micro := none
  /-- The trap save area, the cause whose handler runs (0 for none), and the handler's microcycles (R369). -/
  saved   : Option Micro := none
  handler : Nat := 0
  handlerRun : Nat := 0
  /-- The micro-PC of a handler that the repair ROM has saved (R370). -/
  romPc   : Option (BitVec 14) := none
  /-- The micro-trap causes pending (R370). -/
  causes  : List Nat := []
  /-- Access faults that tasks have recorded (Table 11-3, cause 2). -/
  taskFaults : BitVec 32 := 0
  traps   : BitVec 32 := 0
  repairs : BitVec 16 := 0
  patches : BitVec 16 := 0
  trace   : List TraceEnt := []
  deriving DecidableEq, Repr

/-- The staging buffer states of R371. -/
inductive StageState where
  | empty | filling | filled | valid
  deriving DecidableEq, Repr

/-- A patch in progress (Table 11-6). -/
structure Patch where
  region  : Nat
  startNs : Nat
  oldImage : Image
  /-- The staged image that the patch loads. -/
  image   : Image
  /-- The region's suspended tasks, which the central steward keeps from the quiesce to the handback. -/
  tasks   : List Micro := []
  /-- 0 quiesce, 1 loaded, 2 verified, 3 the verify found a difference. -/
  phase   : Nat := 0
  cmd     : Cmd
  deriving DecidableEq, Repr

/-- The stewards of chapter 11. -/
structure Stewards where
  engines : Tab Steward := []
  staging : StageState := .empty
  length  : Nat := 0
  bytes   : List Byte := []
  staged  : Option Image := none
  patch   : Option Patch := none
  /-- The words that microwords have written to the memory units (MEM_OP, MEM_UNIT), by engine, unit and address. -/
  units   : Tab (BitVec 128) := []
  deriving DecidableEq, Repr

/-! ### Chapter 12: errors -/

/-- The counters of a detector's member (Table 12-9). -/
structure Detector where
  corrected : BitVec 48 := 0
  uncorrected : BitVec 32 := 0
  recoveries : BitVec 32 := 0
  injected  : BitVec 32 := 0
  failed    : Bool := false
  lastBeat  : BitVec 48 := 0
  /-- The beat in which a corrected error last raised ERR_DETECTED (R379). -/
  evBeat    : Option Nat := none
  deriving DecidableEq, Repr

/-- What ERR_CONFIG writes (Table 12-8). -/
structure DetCfg where
  eventEn   : Bool := true
  failLimit : BitVec 4 := 3
  action    : BitVec 2 := 0
  windowLog2 : BitVec 5 := 16
  badWindows : BitVec 8 := 4
  clearWindows : BitVec 8 := 16
  uncorrTh  : BitVec 8 := 1
  symTh     : BitVec 24 := 0x100000
  deriving DecidableEq, Repr

/-- A pending injection (R400). -/
structure Injection where
  det     : Nat
  inst    : Nat
  mode    : Nat
  count   : Nat
  made    : Nat := 0
  period  : Nat
  address : Word
  duration : Word
  pattern : BitVec 64
  check   : BitVec 16
  /-- The detector that INJECT_DONE names. -/
  aim     : Nat := 0
  /-- The pattern waits for the next access. -/
  due     : Bool := true
  /-- The pattern is in place: the next detection is its own. -/
  struck  : Bool := false
  /-- The time base value from which the present PERIOD_US counts, in ps; a step of the time base moves it. -/
  since   : Nat := 0
  deriving DecidableEq, Repr

/-- An error log record (Table 12-10). -/
structure LogRec where
  seq     : BitVec 32
  det     : Nat
  inst    : Nat
  uncorr  : Bool
  injected : Bool
  address : Word
  action  : Nat
  discarded : Nat
  beat    : BitVec 48
  gen     : BitVec 8
  ns      : Nat
  deriving DecidableEq, Repr

/-- A cluster side's fence (R384). -/
structure Fence where
  mark    : DetMark
  discarded : Nat := 0
  deriving DecidableEq, Repr

/-- The replay of a die-to-die channel (R388). -/
structure Replay where
  /-- Flits of the replay buffer, of 256, that are sent again. -/
  flits  : Nat := 0
  /-- Failed replays without one between them that did not fail. -/
  failed : Nat := 0
  deriving DecidableEq, Repr

/-- The detectors, their configuration and what recovery keeps (chapter 12). -/
structure Errors where
  /-- By detector x 2^20 + member. -/
  dets    : Tab Detector := []
  cfgs    : Tab DetCfg := []
  lastInst : Tab Nat := []
  injections : List Injection := []
  log     : List LogRec := []
  logSeq  : BitVec 32 := 0
  /-- By cluster x 2 + side. -/
  fences  : Tab Fence := []
  /-- Recovery instants of each cluster within the last second. -/
  recent  : Tab (List Nat) := []
  failedClusters : Tab Unit := []
  /-- Die-to-die wires replaced per channel, and retired channels. -/
  spares  : Tab Nat := []
  retired : Tab Unit := []
  /-- The die-to-die channels that replay, or whose replays fail (R388). -/
  channels : Tab Replay := []
  /-- Crossing traffic is stopped: fewer than 26 channels were left in a direction (R389). -/
  linkDown : Option DetMark := none
  /-- The loss of the reference, until it returns (R394). -/
  refLoss : Option DetMark := none
  /-- Faults that an injection holds, by detector x 2^20 + member, with the time base value in ps until which (R400). -/
  forced  : Tab Nat := []
  deriving DecidableEq, Repr

/-! ### Chapter 13: the parish -/

/-- A protection group (Table 13-10). -/
structure Protect where
  working : BitVec 10 := 0
  protect : BitVec 10 := 0
  enable  : Bool := false
  revertive : Bool := true
  wtr     : BitVec 12 := 60
  switched : Bool := false
  deriving DecidableEq, Repr

/-- A watch slot (Table 13-10). -/
structure Watch where
  dev   : BitVec 14 := 0
  port  : BitVec 10 := 0
  valid : Bool := false
  deriving DecidableEq, Repr

/-- A segment of a child's bitmap: the bits and the beat of their delivery (R416). -/
structure ChildSeg where
  bits : BitVec 4096
  beat : Nat
  deriving DecidableEq, Repr

/-- A two-phase activation at the manager, or the votes a relay gathers (R420 to R424). -/
structure Activation where
  epoch    : BitVec 16
  /-- The ACTIVATE beat asked for. -/
  beat     : BitVec 48
  deadline : BitVec 48
  strict   : Bool := false
  participants : Tab (BitVec 4096) := []
  prepared : Tab (BitVec 4096) := []
  refused  : Tab (BitVec 4096) := []
  /-- COMMIT was sent to the standby and its acknowledgement is awaited. -/
  awaitAck : Bool := false
  /-- A relay has sent its votes up. -/
  sent     : Bool := false
  cmd      : Option Cmd := none
  deriving DecidableEq, Repr

/-- The parish of chapter 13 (Tables 13-7, 13-9). -/
structure Parish where
  role      : BitVec 3 := 0
  device    : BitVec 14 := 0
  parishId  : BitVec 16 := 0
  voteBeats : BitVec 7 := 4
  mgrTimeout : BitVec 3 := 3
  standby   : BitVec 14 := 0
  eventCode : BitVec 8 := 0xF3
  summaryCode : BitVec 8 := 0xF2
  /-- The number the device had before a take-over is replaced by 0 (R429). -/
  managerGen : BitVec 16 := 0
  /-- The MANAGER_GEN of the last bell frame on the primary and on the alternate upstream port. -/
  primGen   : Option (BitVec 16) := none
  altGen    : Option (BitVec 16) := none
  /-- The beats in which those bell frames came, by `Time.beatRun`. -/
  primBeat  : Nat := 0
  altBeat   : Nat := 0
  /-- The MANAGER_GEN of the last bell frame of the active upstream (R414). -/
  bellMgr   : BitVec 16 := 0
  deposed   : Bool := false
  depth     : BitVec 3 := 0
  rejects   : BitVec 32 := 0
  /-- The last 8 path-delay samples of the primary and of the alternate upstream, in units of 1/2 ns. -/
  delays    : List Int := []
  delaysAlt : List Int := []
  reqSeq    : BitVec 16 := 0
  /-- The request outstanding on each of them: its number and the beat it was sent in. -/
  reqOut    : Option (BitVec 16 × Nat) := none
  reqOutAlt : Option (BitVec 16 × Nat) := none
  lastBell  : BitVec 48 := 0
  /-- The same by `Time.beatRun`. -/
  lastRun   : Nat := 0
  bellSeen  : Bool := false
  lost      : Bool := false
  /-- A HELLO with MANAGER_SEEN has arrived since the last bell frame (R429). -/
  helloSeen : Bool := false
  actEpoch  : BitVec 16 := 0
  actPhase  : BitVec 2 := 0
  actBeat   : BitVec 48 := 0
  masterId  : BitVec 64 := 0
  /-- Child bitmaps by port x 4 + segment. -/
  children  : Tab ChildSeg := []
  nextFtag  : Nat := 0
  /-- The last 64 replies written, each with the command it answers, which names the forwarding tag (R418). -/
  stored    : List (Cmd × Reply) := []
  act       : Option Activation := none
  /-- The standby's acknowledged commit. -/
  ackedCommit : Option (BitVec 16 × BitVec 48) := none
  /-- The PREPARE voted on whose decision has not arrived. -/
  seenPrepare : Option (BitVec 16) := none
  /-- The PREPARE voted on last: its epoch and deadline (R421). -/
  voted     : Option (BitVec 16 × BitVec 48) := none
  /-- Epochs that this manager has decided on since its last PREPARE for them (R423). -/
  decided   : List (BitVec 16) := []
  /-- An abort that the bell frames carry once their commit has come to its thaw (R429). -/
  abortNext : Option (BitVec 16) := none
  alarmCache : List (Nat × Nat × BitVec 16 × Bool) := []
  groups    : Tab Protect := []
  /-- By port x 4 + slot. -/
  watches   : Tab Watch := []
  deriving DecidableEq, Repr

/-! ### Chapter 14 and 15: power, reset, start-up, journal, identity -/

/-- A journal record (R450). -/
structure JRec where
  rtype   : BitVec 16
  seq     : BitVec 32
  counter : BitVec 40
  payload : List Byte
  /-- The 64 KiB sector of the log that holds it. -/
  sector  : Nat := 0
  /-- The bytes of its commit word; empty while they are erased. -/
  commit  : List Byte := []
  deriving DecidableEq, Repr

/-- The states of an image slot (Table 14-13). -/
inductive SlotState where
  | empty | erasing | writing | complete | invalid
  deriving DecidableEq, Repr

/-- An image slot of the flash (R449, R452). -/
structure Slot where
  state   : SlotState := .empty
  central : List Byte := []
  region  : List Byte := []
  /-- The 64 bytes of the directory with its commit word; empty while they are erased. -/
  dir     : List Byte := []
  deriving DecidableEq, Repr

/-- The always-on group: kept through every reset but a power-on reset. -/
structure Aon where
  /-- VAUX is present. -/
  vaux      : Bool := false
  stage     : BitVec 4 := 0
  bootFault : BitVec 4 := 0
  running   : Bool := false
  flashAbsent : Bool := false
  lastReset : BitVec 3 := 0
  bootMode  : BitVec 2 := 0
  /-- The conditions that hold the device in reset: 1 RESET_N, 2 thermal, 3 voltage (R443). -/
  hold      : List (BitVec 3) := []
  /-- The slot tried, whether stage 3 waits for a host boot, and whether it fell back. -/
  waitHost  : Bool := false
  fallback  : Bool := false
  tried     : List Bool := []
  /-- The cause for which the first slot tried failed. -/
  failCause : Nat := 0
  /-- The running images came from the host (R448). -/
  hostBoot  : Bool := false
  bootState : BitVec 2 := 0
  bootCause : BitVec 4 := 0
  bootRegion : Bool := false
  /-- The bytes that the host wrote into BAR2, by offset (R448). -/
  bar2      : Tab Byte := []
  slotA     : Slot := {}
  slotB     : Slot := {}
  /-- The slot whose write is open (R452). -/
  openSlot  : Option Bool := none
  /-- The behaviour level in force (R463), and the level armed (R464). -/
  level     : BitVec 8 := 1
  armed     : Option (BitVec 8) := none
  journal   : List JRec := []
  /-- The bytes used in the sector of the log that is open. -/
  logUsed   : Nat := 0
  /-- The newest record was begun by the always-on group within the last second: its commit word may not be programmed yet. -/
  writing   : Bool := false
  /-- The bytes of the flash's reserved range that are not erased, by address (Table 14-6). -/
  reserved  : Tab Byte := []
  /-- The instruction register of the JTAG port: IDCODE after power-on (R462). -/
  jtagIr    : BitVec 8 := 1
  powerOn   : BitVec 40 := 0
  sinceVaux : BitVec 32 := 0
  cmdBox    : Mailbox := {}
  rplBox    : Mailbox := { level := 1 }
  evtBox    : Mailbox := { level := 1 }
  discarding : Bool := false
  warned    : Tab Unit := []
  /-- The 25 MHz reference is present. -/
  refPresent : Bool := true
  deriving DecidableEq, Repr

/-- A core die. -/
inductive DieState where
  | running | held | restarting
  deriving DecidableEq, Repr

/-- Power, clocks and reset of the main world. -/
structure Power where
  ready     : Bool := false
  west      : DieState := .running
  east      : DieState := .running
  vid       : BitVec 7 := 100
  atCeiling : Bool := false
  /-- The time base value in ns at which AVS_AT_CEILING was last raised; a step of the time base moves it. -/
  ceilingNs : Option Nat := none
  avsEn     : Bool := true
  floor     : BitVec 7 := 0
  ceiling   : BitVec 7 := 100
  margin    : BitVec 5 := 10
  warnC     : BitVec 8 := 115
  hystC     : BitVec 4 := 5
  /-- Domains running, on standby, and failed, bit d for domain d. -/
  clocks    : BitVec 40 := 0
  onStandby : BitVec 40 := 0
  clkFailed : BitVec 40 := 0
  /-- Port blocks whose clock branches run, by block. -/
  blocksOn  : Tab Unit := []
  keepOn    : Tab Unit := []
  mclkOn    : Bool := false
  failedChiplets : Tab Unit := []
  /-- The receive clock of a chiplet is stopped until this instant: its T group switches to the standby PLL (R394). -/
  rxStop    : Tab Nat := []
  /-- 10 ms after a RESTART reply the device resets (R452, R464). -/
  restart   : Bool := false
  deriving DecidableEq, Repr

/-- What the device puts on its outputs, in order: the model's own record of them. -/
inductive Out where
  /-- A unit written to a ring of a PCIe function: kind 0 reply, 1 event, 2 dump, 3 host receive. -/
  | ringUnit (kind fn idx : Nat) (words : List Word) (bytes : List Byte)
  | msix (fn vector : Nat)
  /-- A frame that left a port: its bytes without the FCS, and whether the FCS was stomped. -/
  | frame (port : Nat) (len : Nat) (data : List Byte) (stomped : Bool)
  /-- A pause or PFC frame: its enable vector (0 for Annex 31B), quanta, and its destination and source address. -/
  | pauseFrame (port : Nat) (vector : Nat) (quanta : Nat) (dst src : List Byte)
  /-- A Riwen frame that bypasses the queues: its port, TYPE, destination (0x8000 for ALL) and bytes without FCS. -/
  | riwen (port : Nat) (typ : Nat) (dst : Nat) (data : List Byte)
  /-- The device wrote DONE and STATUS of the host transmit descriptor at this byte count of the ring. -/
  | txDone (fn : Nat) (pos : BitVec 64) (status : Nat)
  /-- The device wrote CONSUMER to words 2 and 3 of the control block at this host address (R337, R360). -/
  | consumer (fn : Nat) (block value : BitVec 64)
  /-- The generator of a lane inverts one bit (R61, R65). -/
  | prbsInvert (lane : Nat)
  /-- A coefficient request beyond a tap's range is answered "at limit" (R53). -/
  | tapAtLimit (lane : Nat) (post : Bool)
  /-- A reply was consumed without being written (PCIe function reset, R444). -/
  | discarded (fn : Nat)
  deriving DecidableEq, Repr

/-- The state of the block. -/
structure State where
  /-- The commands that are waiting, first in, first out. -/
  pending : List Instr := []
  /-- How many free values have been used. -/
  free    : Nat := 0
  out     : List Out := []
  nextPkt : Nat := 0
  lanes   : Tab Lane := []
  ports   : Tab Port := []
  queues  : Tab Queue := []
  /-- Frames that await their parse, and decided packets that await admission. -/
  parseQ  : List Pkt := []
  /-- Summary and event frames at the manager, which their own rows deliver to the host (R411, R433). -/
  riwenQ  : List Pkt := []
  arrivals : List Pkt := []
  parse   : Parse := {}
  tbl     : Tables := {}
  regions : Tab Region := []
  glaciers : Tab Glacier := []
  quotas  : Tab Quota := []
  /-- By region x 65536 + index. -/
  meters  : Tab Meter := []
  time    : Time := {}
  tally   : Tally := {}
  cif     : CmdIf := {}
  stw     : Stewards := {}
  err     : Errors := {}
  parish  : Parish := {}
  aon     : Aon := {}
  pwr     : Power := {}
  deriving DecidableEq, Repr

/-- The machine right after reset. -/
def State.reset : State := {}

end Sys2Proof.Machine
end

