-- ==== Sys2Proof/Machine/Ops.lean ====
section
/-!
DEFINITION. The named operations that the meanings share: bit fields and byte order, tables of numbered objects,
the numbering of Table 0-4, beats, privilege, and raising an event.
-/

namespace Sys2Proof.Machine

/-- The outcome of every event row: the machine goes on in `s`. -/
abbrev Res := Host.Outcome State Fault Refusal

/-! ### Words and bytes -/

/-- The field of `len` bits whose lowest bit is bit `lo`. -/
def fld (w : Word) (lo len : Nat) : Nat := (w.toNat >>> lo) % 2 ^ len

def bit (w : Word) (i : Nat) : Bool := w.getLsbD i

/-- Parameter word `i`; a missing word reads as 0. -/
def wd (ws : List Word) (i : Nat) : Word := ws.getD i 0

def word (n : Nat) : Word := BitVec.ofNat 32 n

/-- The number in words `i` and `i + 1`, low word first (R18). -/
def wd64 (ws : List Word) (i : Nat) : Nat := (wd ws i).toNat + (wd ws (i + 1)).toNat * 2 ^ 32

/-- A number as `k` words, low word first. -/
def wordsOf : Nat → Nat → List Word
  | _, 0 => []
  | n, k + 1 => word n :: wordsOf (n / 2 ^ 32) k

/-- A word from (lowest bit, value) pairs. -/
def pack (fs : List (Nat × Nat)) : Word := word (fs.foldl (fun a f => a + f.2 * 2 ^ f.1) 0)

def b2n (b : Bool) : Nat := if b then 1 else 0

/-- A two's-complement number of `len` bits. -/
def signed (len n : Nat) : Int := if n < 2 ^ (len - 1) then (n : Int) else (n : Int) - 2 ^ len

/-- The low `len` bits of a signed number. -/
def unsigned (len : Nat) (i : Int) : Nat := (i % (2 ^ len : Nat)).toNat

/-- A signed number held to the range of `len` bits. -/
def saturate (len : Nat) (i : Int) : Int :=
  if i < -(2 ^ (len - 1) : Nat) then -(2 ^ (len - 1) : Nat)
  else if (2 ^ (len - 1) : Nat) ≤ i then (2 ^ (len - 1) : Nat) - 1 else i

/-- The bytes of a number, low byte first. -/
def bytesOf : Nat → Nat → List Byte
  | _, 0 => []
  | n, k + 1 => BitVec.ofNat 8 n :: bytesOf (n / 256) k

/-- The number whose bytes stand low byte first. -/
def natOfBytes : List Byte → Nat
  | [] => 0
  | b :: bs => b.toNat + 256 * natOfBytes bs

/-- The number whose bytes stand in network order. -/
def netOfBytes (bs : List Byte) : Nat := bs.foldl (fun a b => a * 256 + b.toNat) 0

/-- The bytes of a number in network order. -/
def netBytes (n k : Nat) : List Byte := (bytesOf n k).reverse

/-- Byte `i` of a byte list; a missing byte reads as 0. -/
def byteAt (bs : List Byte) (i : Nat) : Byte := bs.getD i 0

/-- The number in `k` bytes from offset `o`, low byte first. -/
def natAt (bs : List Byte) (o k : Nat) : Nat := natOfBytes ((List.range k).map fun i => byteAt bs (o + i))

/-- The number in `k` bytes from offset `o`, network order. -/
def netAt (bs : List Byte) (o k : Nat) : Nat := netOfBytes ((List.range k).map fun i => byteAt bs (o + i))

def wordsToBytes (ws : List Word) : List Byte := ws.flatMap fun w => bytesOf w.toNat 4

/-- Whole words of a byte list, low byte first. -/
def bytesToWords (bs : List Byte) (n : Nat) : List Word := (List.range n).map fun i => word (natAt bs (4 * i) 4)

/-- One bit of the reflected CRC-32C register. -/
def crcBit (r : BitVec 32) : BitVec 32 :=
  if r.getLsbD 0 then (r >>> 1) ^^^ 0x82F63B78#32 else r >>> 1

def crcByte (r : BitVec 32) (b : Byte) : BitVec 32 :=
  crcBit (crcBit (crcBit (crcBit (crcBit (crcBit (crcBit (crcBit (r ^^^ b.zeroExtend 32))))))))

/-- CRC-32C of a byte list: polynomial 0x1EDC6F41, initial value all ones, final inversion (R332). -/
def crc32c (bs : List Byte) : Word := ~~~ bs.foldl crcByte 0xFFFFFFFF#32

/-- The ceiling of a division. -/
def ceilDiv (a b : Nat) : Nat := (a + b - 1) / b

/-- Replaces element `i` of a list, if there is one. -/
def setAt {α : Type} : List α → Nat → α → List α
  | [], _, _ => []
  | _ :: xs, 0, v => v :: xs
  | x :: xs, i + 1, v => x :: setAt xs i v

def insertNat (n : Nat) : List Nat → List Nat
  | [] => [n]
  | m :: ms => if m < n then m :: insertNat n ms else n :: m :: ms

/-- A list of numbers in rising order. -/
def sortNat (l : List Nat) : List Nat := l.foldl (fun a n => insertNat n a) []

/-! ### Tables of numbered objects -/

def tget? {α : Type} : Tab α → Nat → Option α
  | [], _ => none
  | (j, v) :: t, k => if j = k then some v else tget? t k

/-- The object `k`, `d` where it is not listed. -/
def tget {α : Type} (t : Tab α) (k : Nat) (d : α) : α := (tget? t k).getD d

/-- Lists `v` under `k`, in place of what was listed there. -/
def tins {α : Type} : Tab α → Nat → α → Tab α
  | [], k, v => [(k, v)]
  | (j, w) :: t, k, v =>
    if j = k then (k, v) :: t
    else if k < j then (k, v) :: (j, w) :: t
    else (j, w) :: tins t k v

def tdel {α : Type} : Tab α → Nat → Tab α
  | [], _ => []
  | (j, w) :: t, k => if j = k then tdel t k else (j, w) :: tdel t k

/-- Sets object `k` to `v`, whose reset value is `d`: an object at its reset value is not listed. -/
def tset {α : Type} [DecidableEq α] (t : Tab α) (k : Nat) (d v : α) : Tab α :=
  if v = d then tdel t k else tins t k v

/-- Changes the listed object `k`; nothing where it is not listed. -/
def tmod {α : Type} (t : Tab α) (k : Nat) (f : α → α) : Tab α :=
  match tget? t k with
  | some v => tins t k (f v)
  | none => t

def thas {α : Type} (t : Tab α) (k : Nat) : Bool := (tget? t k).isSome

def tkeys {α : Type} (t : Tab α) : List Nat := t.map Prod.fst

/-- The canonical form of a table: the numbers rise strictly. -/
def Tab.wf {α : Type} : Tab α → Bool
  | [] => true
  | [_] => true
  | (j, _) :: (k, v) :: t => decide (j < k) && Tab.wf ((k, v) :: t)

/-! ### Numbering (Table 0-4) -/

def laneChiplet (l : Nat) : Nat := l / 128
def laneBlock (l : Nat) : Nat := l / 8
def laneCluster (l : Nat) : Nat := l / 64
def laneRegion (l : Nat) : Nat := l / 256
def regionDie (r : Nat) : Nat := r / 2
def queuePort (q : Nat) : Nat := q / 16
def queueIdx (q : Nat) : Nat := q % 16
def queueRegion (q : Nat) : Nat := queuePort q / 256
def isExpress (q : Nat) : Bool := decide (12 ≤ queueIdx q)

/-! ### Objects of the state -/

/-- The event outcome on an object that does not exist, and the next state otherwise. (DESIGN CHOICE: log entry 3.) -/
def onNum (ok : Bool) (s : State) : Res := if ok then .next s else .fault .noSuchObject

def State.port? (s : State) (p : Nat) : Option Port := tget? s.ports p

/-- Port `p`, or a port at reset values where it is not configured. -/
def State.port (s : State) (p : Nat) : Port := tget s.ports p {}

def State.setPort (s : State) (p : Nat) (v : Port) : State := { s with ports := tins s.ports p v }

/-- Changes port `p` if it is configured. -/
def State.modPort (s : State) (p : Nat) (f : Port → Port) : State := { s with ports := tmod s.ports p f }

def State.lane (s : State) (l : Nat) : Lane := tget s.lanes l {}

def State.setLane (s : State) (l : Nat) (v : Lane) : State := { s with lanes := tset s.lanes l {} v }

def State.modLane (s : State) (l : Nat) (f : Lane → Lane) : State := s.setLane l (f (s.lane l))

def State.queue (s : State) (q : Nat) : Queue := tget s.queues q {}

def State.setQueue (s : State) (q : Nat) (v : Queue) : State := { s with queues := tset s.queues q {} v }

def State.modQueue (s : State) (q : Nat) (f : Queue → Queue) : State := s.setQueue q (f (s.queue q))

def State.region (s : State) (r : Nat) : Region := tget s.regions r {}

def State.setRegion (s : State) (r : Nat) (v : Region) : State := { s with regions := tset s.regions r {} v }

def State.modRegion (s : State) (r : Nat) (f : Region → Region) : State := s.setRegion r (f (s.region r))

def State.glacier (s : State) (d : Nat) : Glacier := tget s.glaciers d {}

def State.setGlacier (s : State) (d : Nat) (v : Glacier) : State := { s with glaciers := tset s.glaciers d {} v }

def State.modGlacier (s : State) (d : Nat) (f : Glacier → Glacier) : State := s.setGlacier d (f (s.glacier d))

def State.func (s : State) (f : Nat) : Func := tget s.cif.funcs f {}

def State.setFunc (s : State) (f : Nat) (v : Func) : State :=
  { s with cif := { s.cif with funcs := tset s.cif.funcs f {} v } }

def State.copyOf (s : State) (r : Nat) : CopyState := tget s.tbl.copies r {}

def State.setCopy (s : State) (r : Nat) (v : CopyState) : State :=
  { s with tbl := { s.tbl with copies := tset s.tbl.copies r {} v } }

def State.engine (s : State) (e : Nat) : Steward := tget s.stw.engines e {}

def State.setEngine (s : State) (e : Nat) (v : Steward) : State :=
  { s with stw := { s.stw with engines := tset s.stw.engines e {} v } }

def State.meter (s : State) (r i : Nat) : Meter := tget s.meters (r * 65536 + i) {}

def State.setMeter (s : State) (r i : Nat) (v : Meter) : State :=
  { s with meters := tset s.meters (r * 65536 + i) {} v }

def State.meterAt (s : State) (k : Nat) : Meter := tget s.meters k {}

/-- Whether the port is configured. -/
def State.hasPort (s : State) (p : Nat) : Bool := thas s.ports p

/-- The configured port that lane `l` belongs to. -/
def State.lanePort? (s : State) (l : Nat) : Option Nat :=
  (tkeys s.ports).find? fun p => decide (p ≤ l) && decide (l < p + (s.port p).width.toNat)

/-- The lanes of port `p`. -/
def State.portLanes (s : State) (p : Nat) : List Nat := (List.range (s.port p).width.toNat).map (p + ·)

/-- The die in reset or repair: 0 West, 1 East. -/
def State.dieStopped (s : State) (d : Nat) : Bool :=
  decide ((if d = 0 then s.pwr.west else s.pwr.east) ≠ .running)

/-- The ports of a region, or of a die, that are configured. -/
def State.regionPorts (s : State) (r : Nat) : List Nat := (tkeys s.ports).filter fun p => laneRegion p = r

def State.diePorts (s : State) (d : Nat) : List Nat := (tkeys s.ports).filter fun p => p / 512 = d

/-- A clock that a port's chiplet or its region cannot do without has failed: TXCLK, RXCLK, PCLK, GCLK or SCLK (Table 14-2,
R394). -/
def State.clockFault (s : State) (chiplet region : Nat) : Bool :=
  [8 + chiplet, 16 + chiplet, region, 4 + region, 30].any fun d => s.pwr.clkFailed.getLsbD d

/-- An end of the die-to-die link has lost both PLLs of its clock XCLK (Table 14-2, R394). -/
def State.linkClockLost (s : State) : Bool := s.pwr.clkFailed.getLsbD 28 || s.pwr.clkFailed.getLsbD 29

/-- The state with one more output. (DESIGN CHOICE: log entry 12.) -/
def State.emit (s : State) (o : Out) : State := { s with out := s.out ++ [o] }

/-- A free value and the state that has used it. (DESIGN CHOICE: log entry 6.) -/
def State.fresh (s : State) : Nat × State := (Config.freeValue s.free, { s with free := s.free + 1 })

/-! ### Counters -/

/-- A 48-bit counter goes up by `n`, wrapping with its sticky bit (R127). -/
def C48.add (c : C48) (n : Nat) : C48 :=
  if c.frozen then c
  else { val := BitVec.ofNat 48 (c.val.toNat + n), sticky := c.sticky || decide (2 ^ 48 ≤ c.val.toNat + n) }

/-- A counter that stops at its greatest value. -/
def satAdd (w : Nat) (v : BitVec w) (n : Nat) : BitVec w := BitVec.ofNat w (min (2 ^ w - 1) (v.toNat + n))

/-! ### Beats (R263 to R266) -/

/-- The beat length in ns. -/
def Time.beatLen (t : Time) : Nat := 1000000000 / t.beats.toNat

/-- The time base value at which beat `b` begins (R264). -/
def Time.boundary (t : Time) (b : Nat) : Nat := b * t.beatLen

/-- Less than 20 µs remain to the boundary of beat `b`, or it has passed. -/
def Time.tooLate (t : Time) (b : Nat) : Bool :=
  decide (b ≤ t.beat.toNat) || decide (t.boundary b < t.ns + 20000)

/-- The first beat whose boundary is at least 20 µs away. -/
def Time.firstFree (t : Time) : Nat := max (t.beat.toNat + 1) (ceilDiv (t.ns + 20000) t.beatLen)

/-- The 48-bit beat with these low 32 bits that lies nearest the current beat; one that would lie below 0 has passed (R266). -/
def Time.extend (t : Time) (low : Word) : Nat :=
  let c : Int := t.beat.toNat
  let d := signed 32 (unsigned 32 ((low.toNat : Int) - c))
  unsigned 48 (max 0 (c + d))

/-- The time base in picoseconds. -/
def Time.ps (t : Time) : Nat := t.ns * 1000 + t.frac.toNat * 1000 / 2 ^ 48

/-- The time base without its steps, in units of 2^-48 ns: elapsed times are measured by it, so that a step does not touch them.
(DEDUCED: log entry 97.) -/
def Time.runTotal (t : Time) : Int := (t.ns : Int) * 2 ^ 48 + t.frac.toNat - t.shift

def Time.runNs (t : Time) : Nat := (t.runTotal / 2 ^ 48).toNat

def Time.runPs (t : Time) : Nat := (t.runTotal * 1000 / 2 ^ 48).toNat

/-- The first whole nanosecond that is not before the time base value. -/
def Time.nextNs (t : Time) : Nat := if t.frac = 0 then t.ns else t.ns + 1

/-- The phase within the current beat, 0 while the beat is held (R275, R290). -/
def Time.phase (t : Time) : Nat := t.ns - t.boundary t.beat.toNat

def State.beatLow (s : State) : Word := s.time.beat.truncate 32

/-! ### Privilege (R328, R329) -/

/-- The privilege of a channel as it stands. -/
def State.privilege (s : State) : Sender → Nat
  | .pcie 0 => 3
  | .pcie f => if (tget s.cif.rights f {}).config then 2 else 1
  | .mgmt => s.cif.mgmtPriv.toNat
  | .inband d => if d = 0 then 3 else 0

/-- The port map that a channel holds, by the number that FUNCTION_RIGHTS gives it. -/
def State.portMap (s : State) : Sender → BitVec 1024
  | .pcie f => (tget s.cif.rights f {}).map
  | .mgmt => (tget s.cif.rights 16 {}).map
  | .inband _ => 0

/-- Rights on a port: every channel at privilege 3 holds them on every port. -/
def State.permitted (s : State) (src : Sender) (p : Nat) : Bool :=
  decide (s.privilege src = 3) || (s.portMap src).getLsbD p

/-! ### Performance counters -/

/-- The attributes of an occurrence that the filters of R309 look at; none where the event has no such attribute. -/
structure Occurs where
  event : Nat
  addr  : Option Nat := none
  cls   : Option Nat := none
  priv  : Option Nat := none
  /-- The originating channel. -/
  chan  : Option Sender := none
  /-- The originator is the device itself: learning, ageing, a flush or recovery. -/
  internal : Bool := false
  deriving DecidableEq, Repr

/-- The bit of CHANNEL_MASK for a sender. -/
def senderChannel : Sender → Nat
  | .pcie _ => 0
  | .mgmt => 1
  | .inband _ => 2

/-- A counter counts an occurrence: its event, and every filter that the event has (R309). -/
def Perf.counts (c : Perf) (o : Occurs) : Bool :=
  c.enable && decide (c.event.toNat = o.event) &&
  (match o.priv with | some p => c.privMask.getLsbD p | none => true) &&
  (match o.chan with
    | some (.pcie f) => c.chanMask.getLsbD 0 && c.fnMask.getLsbD f
    | some x => c.chanMask.getLsbD (senderChannel x)
    | none => !o.internal || c.chanMask.getLsbD 3) &&
  (match o.addr with
    | some a => !c.addrEn || (decide (c.addrLow.toNat ≤ a) && decide (a ≤ c.addrHigh.toNat))
    | none => true) &&
  (match o.cls with | some k => c.clsMask.getLsbD k | none => true)

/-- Every counter that counts the occurrence goes up by `n`. -/
def State.perf (s : State) (o : Occurs) (n : Nat := 1) : State :=
  { s with tally := { s.tally with
      perf := s.tally.perf.map fun e => if e.2.counts o then (e.1, { e.2 with count := e.2.count.add n }) else e } }

/-! ### Events (R356 to R358) -/

/-- The channel behind an event destination. -/
def destSender (d : Nat) : Sender := if d < 16 then .pcie d else if d = 16 then .mgmt else .inband 0

/-- The record of an event raised now. -/
def State.evRec (s : State) (source code : Nat) (payload : List Word) (seq : BitVec 32) : EvRec :=
  { code := code, source := source, gen := s.time.bellGen, seq := seq, beat := s.time.beat, ns := s.time.ns,
    frac := s.time.frac.extractLsb' 32 16, payload := payload }

/-- The event code of EVENT_OVERFLOW. -/
def evOverflow : Nat := 0x0101

/-- How many of the 64 places are taken; an EVENT_OVERFLOW takes none. -/
def EvHold.places (h : EvHold) : Nat := (h.held.filter fun r => r.code ≠ evOverflow).length

/-- Counts a selected event for a destination and holds it, or loses it when the 64 places are full (R357).
(DEDUCED: log entries 34, 35.) -/
def State.hold (s : State) (source dest code : Nat) (payload : List Word) : State :=
  let k := source * 32 + dest
  let h := tget s.cif.holds k {}
  let h' : EvHold :=
    if h.places < 64 then
      if h.lost = 0 then
        { h with seq := h.seq + 1, held := h.held ++ [s.evRec source code payload h.seq] }
      else
        { h with
            seq := h.seq + 2, lost := 0
            held := h.held ++ [s.evRec source evOverflow [h.lost, h.firstLost] h.seq,
                               s.evRec source code payload (h.seq + 1)] }
    else
      { h with
          seq := h.seq + 1, lost := h.lost + 1
          firstLost := if h.lost = 0 then h.seq else h.firstLost }
  let t := { s with cif := { s.cif with holds := tins s.cif.holds k h' } }
  if h.places < 64 then t else t.perf { event := 0x051, chan := some (destSender dest) }

/-- An event of a group is selected for a destination by its mask and privilege (R356). -/
def State.selects (s : State) (dest code : Nat) (port : Option Nat) : Bool :=
  (tget s.cif.dests dest {}).mask.getLsbD (code / 256) &&
    match port with
    | none => true
    | some p => s.permitted (destSender dest) p

/-- A source raises an event that names these ports: a destination need be permitted only one of them (R356). -/
def State.raiseOn (s : State) (source code : Nat) (payload : List Word) (ports : List Nat) : State :=
  (List.range 18).foldl
    (fun t d => if ports.any (fun p => s.selects d code (some p)) then t.hold source d code payload else t) s

/-- A source raises an event: every destination that selects it counts and holds it. -/
def State.raise (s : State) (source code : Nat) (payload : List Word) (port : Option Nat := none) : State :=
  (List.range 18).foldl
    (fun t d => if s.selects d code port then t.hold source d code payload else t) s

/-- An event of the region steward of a port, which names that port. -/
def State.raisePort (s : State) (p code : Nat) (payload : List Word) : State :=
  s.raise (1 + laneRegion p) code payload (some p)

end Sys2Proof.Machine
end

