-- ==== Sys2Proof/Machine/Operands.lean ====
section
/-!
DEFINITION. Command packets: their bytes (R331, R332), the replies (R334), what every opcode of Table 10-13 asks of
a packet (lengths, privilege, target, reserved bits), the checks of R335, and the one operation by which an opcode's
row takes effect (`runCmd`).
-/

namespace Sys2Proof.Machine

/-! ### Status codes (Table 10-5) -/

def stOk : Nat := 0x00
def stPending : Nat := 0x01
def stBadOpcode : Nat := 0x10
def stBadParam : Nat := 0x11
def stBadLength : Nat := 0x12
def stBadCrc : Nat := 0x13
def stNoPrivilege : Nat := 0x20
def stBusy : Nat := 0x30
def stQueueFull : Nat := 0x31
def stTagsExhausted : Nat := 0x32
def stNotFound : Nat := 0x40
def stExists : Nat := 0x41
def stTableFull : Nat := 0x42
def stEpochStale : Nat := 0x50
def stTimePassed : Nat := 0x51
def stHwFault : Nat := 0x60
def stUncorrected : Nat := 0x61
def stAborted : Nat := 0x70

/-! ### Packets as bytes -/

/-- Reads a packet from its bytes (Table 10-2); the trailer follows the parameter words (R332). -/
def parseCmd (src : Sender) (bs : List Byte) : Cmd :=
  let b1 := byteAt bs 1
  let n := natAt bs 6 2
  let t := natAt bs 8 4
  { src := src
    version := byteAt bs 0
    unordered := b1.getLsbD 0, strictTime := b1.getLsbD 1, atBeat := b1.getLsbD 2
    noReply := b1.getLsbD 3, checkCrc := b1.getLsbD 4, flagsRsv := b1.extractLsb' 5 3
    opcode := BitVec.ofNat 16 (natAt bs 2 2)
    tag := BitVec.ofNat 12 (natAt bs 4 2)
    queue := BitVec.ofNat 4 (natAt bs 4 2 / 4096)
    paramWords := BitVec.ofNat 16 n
    device := BitVec.ofNat 14 t, level := BitVec.ofNat 3 (t / 2 ^ 14), unit := BitVec.ofNat 15 (t / 2 ^ 17)
    low := word (natAt bs 12 4)
    crcOk := decide (natAt bs (16 + 4 * n) 4 = (crc32c (bs.take (16 + 4 * n))).toNat)
    words := bytesToWords (bs.drop 16) (min n 1020) }

/-- The bytes of a packet (Table 10-2), its trailer included: what `parseCmd` reads. -/
def encodeCmd (c : Cmd) : List Byte :=
  let flags := b2n c.unordered + 2 * b2n c.strictTime + 4 * b2n c.atBeat + 8 * b2n c.noReply + 16 * b2n c.checkCrc +
    32 * c.flagsRsv.toNat
  let body := [c.version, BitVec.ofNat 8 flags] ++ bytesOf c.opcode.toNat 2 ++ bytesOf (c.tag.toNat + 4096 * c.queue.toNat) 2 ++
    bytesOf c.paramWords.toNat 2 ++ bytesOf (c.device.toNat + c.level.toNat * 2 ^ 14 + c.unit.toNat * 2 ^ 17) 4 ++
    bytesOf c.low.toNat 4 ++ wordsToBytes c.words
  if c.checkCrc then body ++ bytesOf (crc32c body).toNat 4 else body

/-- The bytes a command occupies (R332). -/
def cmdBytes (paramWords : Nat) (checkCrc : Bool) : Nat := 16 + 4 * paramWords + if checkCrc then 4 else 0

/-- The bytes of a reply (Table 10-4), its trailer included. -/
def replyBytes (r : Reply) : List Byte :=
  let head := [r.status, BitVec.ofNat 8 (b2n r.late + 2 * b2n r.crc)] ++ bytesOf r.opcode.toNat 2 ++
    bytesOf (r.tag.toNat + 4096 * r.queue.toNat) 2 ++ bytesOf r.words.length 2 ++
    bytesOf r.beat.toNat 4 ++ bytesOf r.echo.toNat 4 ++ wordsToBytes r.words
  if r.crc then head ++ bytesOf (crc32c head).toNat 4 else head

/-- Whether a channel requires the trailer (Table 10-1). -/
def crcRequired : Sender → Bool
  | .pcie _ => false
  | _ => true

/-- The reply to a command, in the beat of now (R334). -/
def State.mkReply (s : State) (c : Cmd) (status : Nat) (words : List Word) (late : Bool) : Reply :=
  { src := c.src, queue := c.queue, tag := c.tag, opcode := c.opcode, status := BitVec.ofNat 8 status
    late := late, crc := crcRequired c.src || c.checkCrc, beat := s.beatLow, echo := c.low, words := words }

/-! ### What an opcode asks of its packet -/

/-- The privilege an opcode needs. -/
inductive Need where
  | atLeast (n : Nat)
  /-- 3, or 2 with rights on the port. -/
  | cfgPort
  /-- 3, or 2 with configuration rights. -/
  | cfgRight
  /-- 2, or 1 for a permitted port; not at 1 where the CLEAR bit (word, bit) is set. -/
  | readPort (clear : Option (Nat × Nat))
  deriving DecidableEq, Repr

/-- How the parameter words name the port that the rights of R329 are held on. -/
inductive Names where
  | nothing
  /-- A port in word 0 [9:0]. -/
  | port
  /-- A lane in word 0 [9:0]. -/
  | lane
  /-- A queue in word 0 [13:0]. -/
  | queue
  deriving DecidableEq, Repr

/-- The target levels an opcode accepts, with the unit that holds the object (R333). -/
inductive Target where
  | package
  | packageOrParish
  | anyLevel
  /-- The port block of the lane or port in word 0 [9:0]. -/
  | block
  /-- The region of the port in word 0 [9:0], or of the queue in word 0 [13:0]. -/
  | regionOfPort
  | regionOfQueue
  /-- The region in word 0 [1:0]; a region of the mask in word 0 [19:16]; a region of the die in word 0 [0]. -/
  | regionField
  | regionMask
  | regionOfDie
  /-- An engine, or the central engine only. -/
  | steward
  | stewardCentral
  /-- Level 0, or level 1 with a die. -/
  | packageOrDie
  deriving DecidableEq, Repr

/-- The parameter counts an opcode accepts. -/
inductive Lens where
  | exactly (n : Nat)
  /-- LANE_RX_EQ: 10 words in FIXED mode, otherwise 1 (R67). -/
  | rxEq
  /-- TBL_OBJ_WRITE: 18 words for an edit record, otherwise 4. -/
  | objWrite
  /-- GATE_LIST_WRITE: 2 + 2 x COUNT. -/
  | gateList
  /-- MICROCODE_LOAD and IMAGE_WRITE: 2, or 2 + n for DATA. -/
  | load
  /-- JOURNAL_APPEND: 1 + n. -/
  | append
  deriving DecidableEq, Repr

/-- What an opcode asks of its packet; `used` are the bits of the parameter words that are not reserved, the
words past its end being used whole. -/
structure OpSpec where
  lens   : Lens
  need   : Need
  names  : Names := .nothing
  target : Target
  used   : List Nat := []
  deriving DecidableEq, Repr

/-- All 32 bits of a word. -/
def allBits : Nat := 0xFFFFFFFF

/-- The opcodes of Table 10-13 with the reserved bits of their field tables. -/
def opSpec (op : Nat) : Option OpSpec :=
  match op with
  -- group 0x01 (Tables 10-12, 10-14, 15-7)
  | 0x0101 => some ⟨.exactly 0, .atLeast 0, .nothing, .package, []⟩
  | 0x0102 => some ⟨.exactly 1, .atLeast 3, .nothing, .package, [0x3FF]⟩
  | 0x0103 => some ⟨.exactly 0, .atLeast 1, .nothing, .anyLevel, []⟩
  | 0x0104 => some ⟨.exactly 0, .atLeast 1, .nothing, .package, []⟩
  | 0x0105 => some ⟨.exactly 6, .atLeast 2, .nothing, .package, [0x1FF, 0x3FF]⟩
  | 0x0106 => some ⟨.exactly 1, .atLeast 2, .nothing, .packageOrParish, [0xFFFF]⟩
  | 0x0107 => some ⟨.exactly 3, .atLeast 3, .nothing, .packageOrParish, [0xFFFF, allBits, 0xFFFF]⟩
  | 0x0108 => some ⟨.exactly 1, .atLeast 3, .nothing, .packageOrParish, [0xFFFF]⟩
  | 0x0109 => some ⟨.exactly 34, .atLeast 3, .nothing, .package, [0x1F, 0x7]⟩
  | 0x010A => some ⟨.exactly 6, .atLeast 2, .nothing, .package, [0x1F, 0xFFFFE]⟩
  | 0x010B => some ⟨.exactly 6, .atLeast 2, .nothing, .package, [0x1, 0x3F]⟩
  | 0x010C => some ⟨.exactly 1, .atLeast 3, .nothing, .package, [0xFFF]⟩
  -- group 0x02 (Tables 2-4, 3-6)
  | 0x0201 => some ⟨.exactly 3, .cfgPort, .lane, .block, [0x3FF, 0x1F07FF]⟩
  | 0x0202 => some ⟨.exactly 1, .atLeast 2, .lane, .block, [0x3FF]⟩
  | 0x0203 => some ⟨.exactly 2, .cfgPort, .lane, .block, [0x3FF, 0x800F1F1F]⟩
  | 0x0204 => some ⟨.rxEq, .cfgPort, .lane, .block, [0x803003FF, 0xFF1F]⟩
  | 0x0205 => some ⟨.exactly 1, .atLeast 2, .lane, .block, [0x3FFFF]⟩
  | 0x0206 => some ⟨.exactly 2, .atLeast 3, .lane, .block, [0x3FF, 0x1FF]⟩
  | 0x0207 => some ⟨.exactly 1, .atLeast 3, .lane, .block, [0x800003FF]⟩
  | 0x0208 => some ⟨.exactly 1, .cfgPort, .lane, .block, [0x3FF]⟩
  | 0x0210 => some ⟨.exactly 3, .cfgPort, .port, .block, [0x3FF, 0x7FFF, 0x3FFF]⟩
  | 0x0211 => some ⟨.exactly 1, .atLeast 3, .port, .block, [0x3FF]⟩
  | 0x0212 => some ⟨.exactly 1, .readPort none, .port, .block, [0x3FF]⟩
  | 0x0213 => some ⟨.exactly 2, .readPort (some (1, 31)), .port, .block, [0x3FF, 0x80007F7F]⟩
  | 0x0214 => some ⟨.exactly 7, .cfgPort, .port, .block,
      [0x3FF, 0x1FFFFFF, 0x3FFFFFFF, 0x3FFFF, allBits, allBits, 0xFFFF]⟩
  | 0x0215 => some ⟨.exactly 3, .atLeast 3, .port, .block, [0x800003FF]⟩
  -- group 0x03 (Table 4-8)
  | 0x0301 => some ⟨.exactly 3, .cfgPort, .port, .package, [0x3FF, 0xFFFF, 0x3FFFFF]⟩
  | 0x0302 => some ⟨.exactly 55, .atLeast 3, .nothing, .package,
      [0xFF, 0xFFFF, 0x3FFFFFF, allBits, 0x3FFFFFF, 0x1FFF7F7F, 0x7FF] ++
        ((List.replicate 24 [0xF3FFF, 0xFFFF]).flatten)⟩
  | 0x0303 => some ⟨.exactly 5, .atLeast 3, .nothing, .package, [0x7FF, 0xFFFF, allBits, allBits, 0x1FFFF]⟩
  | 0x0304 => some ⟨.exactly 1, .atLeast 2, .nothing, .package, [0x37FF0007]⟩
  | 0x0305 => some ⟨.exactly 11, .atLeast 3, .nothing, .package, [0xF001F, 0xFFFF, 0xFFFF3F]⟩
  | 0x0306 => some ⟨.exactly 4, .atLeast 3, .nothing, .package, [0xF003F, 0xFFFF, 0xBF]⟩
  | 0x0307 => some ⟨.exactly 9, .atLeast 3, .nothing, .package, [0xF000F, 0xFFFF] ++ List.replicate 7 0xBFBFBFBF⟩
  | 0x0308 => some ⟨.exactly 46, .atLeast 3, .nothing, .package,
      [0x1F7FFF, 0xFFFF] ++ List.replicate 40 allBits ++ [0xFFFF7FFF, 0xFFFF, 0x3FFFFF, 0]⟩
  | 0x0309 => some ⟨.exactly 2, .atLeast 3, .nothing, .package, [0xF7FFF, 0xFFFF]⟩
  | 0x030A => some ⟨.exactly 1, .atLeast 2, .nothing, .package, [0x80037FFF]⟩
  | 0x030B => some ⟨.exactly 2, .readPort (some (1, 31)), .port, .package, [0x3FF, 0x80000000]⟩
  -- group 0x04 (Table 5-7)
  | 0x0401 => some ⟨.exactly 5, .atLeast 3, .nothing, .package, [0, 0xFFFF, 0x3]⟩
  | 0x0402 => some ⟨.exactly 6, .cfgRight, .nothing, .package, [0x1, 0xFFFF]⟩
  | 0x0403 => some ⟨.exactly 5, .cfgRight, .nothing, .package, [0, 0xFFFF, allBits, allBits, 0xF0FF]⟩
  | 0x0404 => some ⟨.exactly 7, .atLeast 3, .nothing, .package, [0x3FF, 0xFFFF]⟩
  | 0x0405 => some ⟨.exactly 6, .atLeast 3, .nothing, .package, [0x3FF, 0xFFFF]⟩
  | 0x0406 => some ⟨.exactly 6, .atLeast 2, .nothing, .package, [0x1FFF, 0]⟩
  | 0x0407 => some ⟨.exactly 2, .atLeast 2, .nothing, .package, [0xFFFF, 0]⟩
  | 0x0408 => some ⟨.exactly 3, .cfgPort, .port, .package, [0xFFFFFF, 0xFFFF, 0]⟩
  | 0x0409 => some ⟨.objWrite, .atLeast 3, .nothing, .package, [0xFFFFF, 0xFFFF]⟩
  | 0x040A => some ⟨.exactly 2, .atLeast 3, .nothing, .package, [0xFFFFF, 0xFFFF]⟩
  | 0x040B => some ⟨.exactly 1, .atLeast 2, .nothing, .package, [0xFFFFF]⟩
  | 0x040C => some ⟨.exactly 3, .atLeast 3, .nothing, .package, [0xFFFF, 0xFFFF, 0x3FFFF]⟩
  | 0x040D => some ⟨.exactly 4, .cfgPort, .port, .package, [0x3FF, 0xFFFF, 0xFFFF, 0x1FFFFF]⟩
  | 0x040E => some ⟨.exactly 7, .atLeast 3, .nothing, .package, [0, 0xFFFF, 0xFFFFFF, 0xFFFF]⟩
  | 0x040F => some ⟨.exactly 5, .atLeast 3, .nothing, .package, [0xF, 0xFFFF, 0xF, 0x3F3F3F3F, 0x3F]⟩
  | 0x0410 => some ⟨.exactly 1, .atLeast 2, .nothing, .package, [0x7FF]⟩
  -- group 0x05 (Table 6-4)
  | 0x0501 => some ⟨.exactly 4, .atLeast 3, .nothing, .regionField, [0x3, 0xFFFF, 0xFFFF]⟩
  | 0x0502 => some ⟨.exactly 4, .cfgPort, .port, .regionOfPort, [0x3FF, 0xFF3FFF, 0xFFFFF, 0xFFFFF]⟩
  | 0x0503 => some ⟨.exactly 5, .cfgPort, .queue, .regionOfQueue, [0x3FFF, 0x1FFFF, 0xFFFFF, 0x7FFFFFFF, 0xF3F3F3F]⟩
  | 0x0504 => some ⟨.exactly 4, .atLeast 3, .nothing, .regionMask, [0xF003F, 0xFFFFFF, 0xFFFFFF, 0x7FF]⟩
  | 0x0505 => some ⟨.exactly 3, .atLeast 3, .nothing, .regionField, [0x7, 0x7FFF, 0x7FFF]⟩
  | 0x0506 => some ⟨.exactly 1, .atLeast 2, .nothing, .regionField, [0x3]⟩
  | 0x0507 => some ⟨.exactly 1, .readPort (some (0, 31)), .queue, .regionOfQueue, [0x80003FFF]⟩
  | 0x0508 => some ⟨.exactly 1, .atLeast 2, .nothing, .regionOfDie, [0x1]⟩
  -- group 0x06 (Table 7-3)
  | 0x0601 => some ⟨.exactly 5, .cfgPort, .port, .regionOfPort, [0x3FF, 0x7FFF, allBits, 0xFFFFFF, 0xFFFFFF]⟩
  | 0x0602 => some ⟨.exactly 4, .cfgPort, .queue, .regionOfQueue, [0x3FFF, 0x7FF, allBits, 0xFFFFFF]⟩
  | 0x0603 => some ⟨.gateList, .cfgPort, .port, .regionOfPort, [0x3FF, 0x3FFFE]⟩
  | 0x0604 => some ⟨.exactly 2, .atLeast 2, .port, .regionOfPort, [0x3FF, 0x3FFFF]⟩
  | 0x0605 => some ⟨.exactly 6, .cfgPort, .port, .regionOfPort, [0x3FF, 0x1FF, allBits, allBits, 0xFFFF, 0x3FFFFFFF]⟩
  | 0x0606 => some ⟨.exactly 1, .cfgPort, .port, .regionOfPort, [0x3FF]⟩
  | 0x0607 => some ⟨.exactly 1, .readPort none, .port, .regionOfPort, [0x3FF]⟩
  | 0x0608 => some ⟨.exactly 6, .atLeast 3, .nothing, .package, [0xFFFFF, 0xFFF, allBits, 0xFFFFFF, allBits, 0xFFFFFF]⟩
  | 0x0609 => some ⟨.exactly 1, .atLeast 2, .nothing, .package, [0x8003FFFF]⟩
  | 0x060A => some ⟨.exactly 1, .readPort none, .queue, .regionOfQueue, [0x3FFF]⟩
  -- group 0x07 (Table 8-4)
  | 0x0701 => some ⟨.exactly 1, .atLeast 1, .nothing, .package, [0]⟩
  | 0x0702 => some ⟨.exactly 2, .atLeast 3, .nothing, .package, [0, 0x3FFF]⟩
  | 0x0703 => some ⟨.exactly 5, .atLeast 3, .nothing, .package, [0, 0xFFFF, allBits, 0x3FFFFFFF, 0xFFFFFF]⟩
  | 0x0704 => some ⟨.exactly 5, .atLeast 3, .nothing, .package, [0, 0x3, allBits, allBits, 0xFFFF]⟩
  | 0x0705 => some ⟨.exactly 3, .atLeast 3, .nothing, .package, [0, allBits, 0xFFFF]⟩
  -- group 0x08 (Table 9-12)
  | 0x0801 => some ⟨.exactly 2, .atLeast 3, .nothing, .package, [0, 0xFFFFF]⟩
  | 0x0802 => some ⟨.exactly 6, .atLeast 3, .nothing, .package, [0x7, 0x3FF]⟩
  | 0x0803 => some ⟨.exactly 1, .readPort none, .port, .package, [0x3FF]⟩
  | 0x0804 => some ⟨.exactly 6, .atLeast 3, .nothing, .package, [0x1FF, 0xFFFFF, 0xFFFFF, 0x1FFFF]⟩
  | 0x0805 => some ⟨.exactly 1, .atLeast 1, .nothing, .package, [0x8003FFFF]⟩
  | 0x0806 => some ⟨.exactly 2, .cfgPort, .port, .package, [0x3FF, 0x1FFFF]⟩
  | 0x0807 => some ⟨.exactly 1, .readPort none, .port, .package, [0x3FF]⟩
  | 0x0808 => some ⟨.exactly 3, .cfgPort, .port, .package, [0x3FF, 0x3FFFFFF]⟩
  | 0x0809 => some ⟨.exactly 3, .atLeast 3, .nothing, .package, [0xF, 0xFFFF, 0x3FFF]⟩
  -- group 0x09 (Table 12-6)
  | 0x0901 => some ⟨.exactly 1, .atLeast 2, .nothing, .package, [0xFFFFFFF]⟩
  | 0x0902 => some ⟨.exactly 8, .atLeast 3, .nothing, .package,
      [0xFFFFFFF, 0xFFFF0007, allBits, allBits, allBits, allBits, allBits, 0xFFFF]⟩
  | 0x0903 => some ⟨.exactly 4, .atLeast 3, .nothing, .package, [0xFFFFFFF, 0x1F, 0x7FFFFF]⟩
  | 0x0904 => some ⟨.exactly 1, .atLeast 2, .nothing, .package, [0x1FFFFF]⟩
  -- group 0x0A (Table 11-7)
  | 0x0A01 => some ⟨.exactly 0, .atLeast 2, .nothing, .steward, []⟩
  | 0x0A02 => some ⟨.load, .atLeast 3, .nothing, .stewardCentral, [0x7, 0xFFFFF]⟩
  | 0x0A03 => some ⟨.exactly 2, .atLeast 3, .nothing, .steward, [0]⟩
  | 0x0A04 => some ⟨.exactly 1, .atLeast 3, .nothing, .steward, [0x7FFFF]⟩
  -- group 0x0B (Table 13-6)
  | 0x0B01 => some ⟨.exactly 4, .atLeast 3, .nothing, .packageOrParish, [0, 0x1FFFF, 0x3FFFFFF, 0x3FFFFFFF]⟩
  | 0x0B02 => some ⟨.exactly 1, .atLeast 2, .nothing, .packageOrParish, [0]⟩
  | 0x0B03 => some ⟨.exactly 2, .atLeast 3, .nothing, .packageOrParish, [0x3FF, 0x7FF]⟩
  | 0x0B04 => some ⟨.exactly 3, .atLeast 3, .nothing, .packageOrParish, [0x1FFF]⟩
  | 0x0B05 => some ⟨.exactly 1, .atLeast 2, .nothing, .packageOrParish, [0x3]⟩
  -- groups 0x0C and 0x0D (Table 14-8)
  | 0x0C01 => some ⟨.exactly 0, .atLeast 2, .nothing, .package, []⟩
  | 0x0C02 => some ⟨.exactly 2, .atLeast 3, .nothing, .package, [0, 0xFFF]⟩
  | 0x0C03 => some ⟨.exactly 0, .atLeast 2, .nothing, .package, []⟩
  | 0x0C04 => some ⟨.exactly 1, .atLeast 3, .nothing, .packageOrDie, [0x1FF]⟩
  | 0x0C05 => some ⟨.exactly 2, .atLeast 3, .nothing, .package, [0, 0xFFFFF]⟩
  | 0x0D01 => some ⟨.exactly 2, .atLeast 2, .nothing, .package, [0x3]⟩
  | 0x0D02 => some ⟨.append, .atLeast 3, .nothing, .package, [0x7FFFF]⟩
  | 0x0D03 => some ⟨.load, .atLeast 3, .nothing, .package, [0xF, 0xFFFFF]⟩
  | 0x0D04 => some ⟨.exactly 1, .atLeast 3, .nothing, .package, [0x3]⟩
  | 0x0D05 => some ⟨.exactly 0, .atLeast 2, .nothing, .package, []⟩
  | _ => none

/-- The count of parameter words is one that the opcode accepts. -/
def Lens.ok (l : Lens) (ws : List Word) (n : Nat) : Bool :=
  match l with
  | .exactly k => decide (n = k)
  | .rxEq => decide (n = if fld (wd ws 0) 20 2 = 2 ∧ bit (wd ws 0) 31 = false then 10 else 1)
  | .objWrite => decide (n = if fld (wd ws 0) 0 2 = 2 then 18 else 4)
  | .gateList => decide (n = 2 + 2 * fld (wd ws 1) 9 9)
  | .load => if fld (wd ws 0) 0 2 = 1 then decide (3 ≤ n) && decide (n ≤ 1020) else decide (n = 2)
  | .append => decide (2 ≤ n) && decide (n ≤ 257)

/-- The port that the packet names for the rights of R329. -/
def State.namedPort (s : State) (nm : Names) (ws : List Word) : Option Nat :=
  match nm with
  | .nothing => none
  | .port => some (fld (wd ws 0) 0 10)
  | .lane => s.lanePort? (fld (wd ws 0) 0 10)
  | .queue => some (fld (wd ws 0) 0 14 / 16)

/-- A sender holds a right on the port that the packet names. -/
def State.portRight (s : State) (src : Sender) (nm : Names) (ws : List Word) : Bool :=
  match s.namedPort nm ws with
  | some p => s.permitted src p
  | none => false

/-- A sender's privilege is enough for an opcode (R328, R329). (DEDUCED: log entry 16.) -/
def State.mayRun (s : State) (sp : OpSpec) (src : Sender) (ws : List Word) : Bool :=
  let p := s.privilege src
  match sp.need with
  | .atLeast n => decide (n ≤ p)
  | .cfgPort => decide (p = 3) || (decide (p = 2) && s.portRight src sp.names ws)
  | .cfgRight => decide (p = 3) || (decide (p = 2) && (match src with | .pcie _ => true | _ => false))
  | .readPort clear =>
    decide (2 ≤ p) ||
      (decide (p = 1) && s.portRight src sp.names ws &&
        match clear with
        | some (w, b) => !(bit (wd ws w) b)
        | none => true)

/-- A level and a unit within the level's range (Table 10-3). -/
def unitOk (level unit : Nat) : Bool :=
  match level with
  | 0 => decide (unit = 0)
  | 1 => decide (unit < 2)
  | 2 => decide (unit < 4)
  | 3 => decide (unit < 16)
  | 4 => decide (unit < 128)
  | 5 => decide (unit < 5)
  | 6 => decide (unit = 0)
  | _ => false

/-- The target of the packet is one that the opcode accepts, and holds the object it names (R333). -/
def Target.ok (t : Target) (level unit : Nat) (ws : List Word) : Bool :=
  unitOk level unit &&
  let w := wd ws 0
  match t with
  | .package => decide (level = 0)
  | .packageOrParish => decide (level = 0) || decide (level = 6)
  | .anyLevel => true
  | .block => decide (level = 4) && decide (unit = fld w 0 10 / 8)
  | .regionOfPort => decide (level = 2) && decide (unit = fld w 0 10 / 256)
  | .regionOfQueue => decide (level = 2) && decide (unit = fld w 0 14 / 4096)
  | .regionField => decide (level = 2) && decide (unit = fld w 0 2)
  | .regionMask => decide (level = 2) && bit w (16 + unit)
  | .regionOfDie => decide (level = 2) && decide (unit / 2 = fld w 0 1)
  | .steward => decide (level = 5)
  | .stewardCentral => decide (level = 5) && decide (unit = 0)
  | .packageOrDie => decide (level = 0) || decide (level = 1)

/-- No reserved bit of the parameter words is set (R19). -/
def usedOk : List Nat → List Word → Bool
  | u :: us, w :: ws => decide (w.toNat &&& (allBits ^^^ u) = 0) && usedOk us ws
  | _, _ => true

/-! ### The checks of R335 -/

/-- Checks 1 to 3: trailer, version and opcode, length. -/
def cmdFailForm (c : Cmd) : Option Nat :=
  if (crcRequired c.src && !c.checkCrc) || (c.checkCrc && !c.crcOk) then some stBadCrc
  else
    match opSpec c.opcode.toNat with
    | none => some stBadOpcode
    | some sp =>
      if c.version ≠ 1 then some stBadOpcode
      else if c.paramWords.toNat = c.words.length ∧ c.words.length ≤ 1020 ∧
          sp.lens.ok c.words c.paramWords.toNat = true then none
      else some stBadLength

/-- Check 4: privilege. -/
def State.failPriv (s : State) (c : Cmd) : Option Nat :=
  match opSpec c.opcode.toNat with
  | none => some stBadOpcode
  | some sp => if s.mayRun sp c.src c.words then none else some stNoPrivilege

/-- Flag combinations that an opcode refuses (R348, R350). -/
def cmdFlagsOk (c : Cmd) : Bool :=
  decide (c.flagsRsv = 0) &&
  !(decide (c.opcode = 0x0104) && (c.unordered || c.atBeat)) &&
  !(decide (c.opcode = 0x0107) && c.atBeat)

/-- The QUEUE field fits the channel (Table 10-2). (DEDUCED: log entry 18.) -/
def cmdQueueOk (c : Cmd) : Bool :=
  match c.src with
  | .mgmt => decide (c.queue = 0)
  | _ => true

/-- Check 6 without the tag: target, flags and reserved bits. -/
def State.failTarget (s : State) (c : Cmd) : Option Nat :=
  if c.device ≠ s.parish.device then some stNotFound
  else
    match opSpec c.opcode.toNat with
    | none => some stBadOpcode
    | some sp =>
      if sp.target.ok c.level.toNat c.unit.toNat c.words && cmdFlagsOk c && cmdQueueOk c && usedOk sp.used c.words then none
      else some stBadParam

/-- Whether the command is one of the accepted commands in flight: its privilege was settled then (R328). -/
def State.accepted (s : State) (c : Cmd) : Bool :=
  s.cif.flights.any fun f => decide (f.cmd = c) && !f.rejected

/-- The status of the first check that the packet fails, when it takes effect as opcode `op`. -/
def State.firstFail (s : State) (op : Nat) (c : Cmd) : Option Nat :=
  match cmdFailForm c with
  | some st => some st
  | none =>
    if c.opcode.toNat ≠ op then some stBadOpcode
    else if s.accepted c then s.failTarget c
    else
      match s.failPriv c with
      | some st => some st
      | none => s.failTarget c

/-! ### Taking effect -/

/-- What an opcode's own action answers: none while the final reply comes with a later event. -/
structure Ans where
  status : Nat := 0
  words  : List Word := []
  late   : Bool := false
  deriving DecidableEq, Repr

/-- The state with the result of a command, which COMMAND_COMPLETE makes the final reply. -/
def State.answer (s : State) (c : Cmd) (a : Ans) : State :=
  { s with cif := { s.cif with results := s.cif.results ++ [s.mkReply c a.status a.words a.late] } }

/-- An action that fails: the state as it was, and the status. -/
def fail (s : State) (status : Nat) : State × Option Ans := (s, some { status := status })

def done (s : State) (words : List Word := []) : State × Option Ans := (s, some { words := words })

/-- The opcodes that the always-on domain executes for the management bus before READY (R330). -/
def aonOpcode (op : Nat) : Bool := decide (op = 0x0101) || decide (op = 0x0D01)

/-- The steward that executes a command: 0 central, 1 to 4 regions (Table 10-3). -/
def cmdEngine (c : Cmd) : Nat :=
  match c.level.toNat with
  | 2 => 1 + c.unit.toNat
  | 3 => 1 + c.unit.toNat / 4
  | 4 => 1 + c.unit.toNat / 32
  | _ => 0

/-- The command's unit is faulted: the stewards' clock SCLK, which every target needs, runs no more; its chiplet has failed
(Table 14-4, stage 7); or a clock of its port block or region runs no more (Table 1-4). -/
def State.unitFault (s : State) (c : Cmd) : Bool :=
  let u := c.unit.toNat
  s.pwr.clkFailed.getLsbD 30 ||
  match c.level.toNat with
  | 4 => thas s.pwr.failedChiplets (u / 16) || s.clockFault (u / 16) (u / 32)
  | 2 => [u, 4 + u].any fun d => s.pwr.clkFailed.getLsbD d
  | 3 => [u / 4, 4 + u / 4].any fun d => s.pwr.clkFailed.getLsbD d
  | _ => false

/-- The die on which a command's unit, cluster, region or region steward lies; none for the targets of the package and of a whole
die (Table 10-3). (DEDUCED: log entry 114.) -/
def targetDie (c : Cmd) : Option Nat :=
  let e := if c.level = 5 then c.unit.toNat else cmdEngine c
  if e = 0 then none else some (regionDie (e - 1))

/-- The command's target lies on a stopped die (R35). -/
def State.targetStopped (s : State) (c : Cmd) : Bool :=
  match targetDie c with
  | some d => s.dieStopped d
  | none => false

/-- What a completed command adds to the performance counters (Table 9-9). -/
def State.countDone (s : State) (c : Cmd) (priv : Nat) (ok : Bool) : State :=
  s.perf { event := if ok then 0x011 else 0x012, priv := some priv, chan := some c.src, addr := some c.unit.toNat }

/-- A command is answered once: a result of it waits for COMMAND_COMPLETE. -/
def State.hasResult (s : State) (c : Cmd) : Bool :=
  s.cif.results.any fun r => decide (r.src = c.src) && decide (r.tag = c.tag) && decide (r.queue = c.queue)

/-- The cluster of a command to a cluster or a port block is under recovery: the command waits (R384). -/
def State.fenceWait (s : State) (c : Cmd) : Bool :=
  let k := if c.level = 3 then some c.unit.toNat else if c.level = 4 then some (c.unit.toNat / 8) else none
  match k with
  | some k => thas s.err.fences (2 * k) || thas s.err.fences (2 * k + 1)
  | none => false

/-- The command may take effect now. One in flight must have been handed to its steward in its queue's order and not be
answered yet (R4, R347); a packet that is not in flight stands for its whole path at once. A command to a cluster under recovery
waits in its steward's hands (R384). -/
def State.turn (s : State) (c : Cmd) : Bool :=
  !s.fenceWait c &&
  match s.cif.flights.find? fun f => decide (f.cmd = c) && !f.rejected with
  | some f => decide (f.phase = .running) && !s.hasResult c
  | none => true

/-- The privilege that a command carries: settled at its acceptance (R328). -/
def State.cmdPriv (s : State) (c : Cmd) : Nat :=
  match s.cif.flights.find? fun f => decide (f.cmd = c) && !f.rejected with
  | some f => f.priv
  | none => s.privilege c.src

/-- The table changes that a command has committed count (Table 9-9); the deletions of a flush are the device's own (R309). -/
def State.commits (old : State) (c : Cmd) (t : State) : State :=
  let n := (t.tbl.tsn.val - old.tbl.tsn.val).toNat
  let own := if c.opcode.toNat = 0x0408 then min n 1 else n
  if n = 0 then t
  else
    (t.perf { event := 0x014, priv := some (old.cmdPriv c), chan := some c.src } own).perf
      { event := 0x014, internal := true } (n - own)

/-- A command packet takes effect as opcode `op`: the checks of R335 in order, then the opcode's own action.
Before READY the management bus gets BUSY for all but two opcodes, and no other channel is heard (R330); a command whose turn
has not come does nothing; a target on a stopped die gives BUSY (R35), a faulted one HW_FAULT (Table 1-4), but before READY the always-on
domain executes those two opcodes itself. (DEDUCED: log entries 9, 17.) -/
def runCmd (op : Nat) (c : Cmd) (s : State) (act : State → State × Option Ans) : State :=
  if s.pwr.ready = false ∧ c.src ≠ .mgmt then s
  else if s.turn c = false then s
  else if s.pwr.ready = false ∧ aonOpcode c.opcode.toNat = false then s.answer c { status := stBusy }
  else
    match s.firstFail op c with
    | some st => s.answer c { status := st }
    | none =>
      if s.targetStopped c then s.answer c { status := stBusy }
      else if s.pwr.ready = true ∧ s.unitFault c = true then s.answer c { status := stHwFault }
      else
        match act s with
        | (t, some a) => (s.commits c t).answer c a
        | (t, none) => s.commits c t

end Sys2Proof.Machine
end

