-- ==== Sys2Proof/Machine/Account.lean ====
section
/-!
DEFINITION. What the device counts: MAC and parser statistics (R79, R136), the fold of a
disposition into a tally bank (R294, R295), latency histograms (R308), and the units of the dump streams (R302, R305).
-/

namespace Sys2Proof.Machine

/-! ### MAC and parser statistics -/

/-- Adds to a 40-bit statistic; true when bit 39 changes from 0 to 1 (R79). -/
def stat40 (t : Tab (BitVec 40)) (i n : Nat) : Tab (BitVec 40) × BitVec 40 × Bool :=
  let old := tget t i 0
  let new := BitVec.ofNat 40 (old.toNat + n)
  (tset t i 0 new, new, !old.getLsbD 39 && new.getLsbD 39)

/-- Adds `n` to MAC statistic `i` of port `p` and raises MAC_STAT_HALF at half range. -/
def State.mac (s : State) (p i : Nat) (n : Nat := 1) : State :=
  match s.port? p with
  | none => s
  | some v =>
    let r := if v.macFrozen.contains i then (v.mac, 0, false) else stat40 v.mac i n
    let t := s.setPort p { v with mac := r.1 }
    if r.2.2 then t.raisePort p 0x0210 ([word p, word i] ++ wordsOf r.2.1.toNat 2) else t

/-- Adds `n` to parser statistic `i` of port `p` and raises PARSER_STAT_HALF at half range (R136). -/
def State.parserStat (s : State) (p i : Nat) (n : Nat := 1) : State :=
  match s.port? p with
  | none => s
  | some v =>
    let r := if v.parserFrozen.contains i then (v.parserStat, 0, false) else stat40 v.parserStat i n
    let t := s.setPort p { v with parserStat := r.1 }
    if r.2.2 then t.raisePort p 0x0301 ([word p, word i] ++ wordsOf r.2.1.toNat 2) else t

/-- The size bin of a frame length (Table 3-3). -/
def sizeBin (len : Nat) : Nat :=
  if len ≤ 64 then 0 else if len ≤ 127 then 1 else if len ≤ 255 then 2 else if len ≤ 511 then 3
  else if len ≤ 1023 then 4 else if len ≤ 1518 then 5 else if len ≤ 2047 then 6 else if len ≤ 4095 then 7
  else if len ≤ 8191 then 8 else if len ≤ 9216 then 9 else 10

/-! ### Accounts of a port number -/

/-- Changes the account of a port number, configured or deleted. -/
def State.modAccount (s : State) (p : Nat) (f : Port → Port) : State :=
  if s.hasPort p then s.modPort p f
  else { s with tally := { s.tally with gone := tmod s.tally.gone p f } }

/-- The account of a port number. -/
def State.account (s : State) (p : Nat) : Port := (s.port? p).getD (tget s.tally.gone p {})

/-! ### Tallies -/

def Disp.code : Disp → Nat
  | .forwarded => 0 | .stomped => 1 | .dropped => 2 | .toHost => 3 | .consumed => 4
  | .copyDelivered => 5 | .copyCut => 6 | .copyDropped => 7

/-- Codes of the reasons of Table 9-2. -/
def rsNone : Nat := 0x00
def rsRunt : Nat := 0x01
def rsOversize : Nat := 0x02
def rsFcs : Nat := 0x03
def rsParseLimit : Nat := 0x04
def rsLength : Nat := 0x05
def rsPauseStorm : Nat := 0x06
def rsNoRoute : Nat := 0x10
def rsAclDeny : Nat := 0x11
def rsTableUncorrected : Nat := 0x12
def rsLearnLimit : Nat := 0x13
def rsPolicerRed : Nat := 0x20
def rsWred : Nat := 0x21
def rsBufferExhausted : Nat := 0x22
def rsQuota : Nat := 0x23
def rsGlacierFull : Nat := 0x24
def rsLifetime : Nat := 0x25
def rsTxUnderrun : Nat := 0x26
def rsHostPathFull : Nat := 0x27
def rsPortDown : Nat := 0x30
def rsPeerDieDown : Nat := 0x31
def rsFaultDiscard : Nat := 0x40
def rsMixed : Nat := 0xFF

/-- EGRESS of a tally key where no egress port was fixed, and in an overflow record (Table 9-6). -/
def egressNone : Nat := 0x400
def egressAny : Nat := 0x7FF

/-- Adds one packet to the entry of a key, if the list has it. -/
def addEntry (k : TKey) (pkts bytes : Nat) : List TEnt → Option (List TEnt)
  | [] => none
  | e :: es =>
    if e.key = k then
      some ({ e with packets := e.packets + BitVec.ofNat 64 pkts, bytes := e.bytes + BitVec.ofNat 64 bytes } :: es)
    else (addEntry k pkts bytes es).map (e :: ·)

/-- The bank's overflow key of an ingress port and disposition (R295). -/
def overflowKey (k : TKey) : TKey :=
  { ingress := k.ingress, egress := egressAny, cls := 0, disp := k.disp, reason := BitVec.ofNat 8 rsMixed, copy := 0
    overflow := true }

/-- The keyed entries of a bank. -/
def bankKeyed (b : Bank) : Nat := (b.cur.filter fun e => !e.key.overflow).length

/-- Folds `pkts` packets of one key into a region's current bank (R295). -/
def State.foldKey (s : State) (region : Nat) (k : TKey) (pkts bytes : Nat) : State :=
  let b := tget s.tally.banks region {}
  let set (t : State) (v : Bank) : State := { t with tally := { t.tally with banks := tins t.tally.banks region v } }
  let fresh : TKey → TEnt := fun k => { key := k, packets := BitVec.ofNat 64 pkts, bytes := BitVec.ofNat 64 bytes }
  match addEntry k pkts bytes b.cur with
  | some l => set s { b with cur := l }
  | none =>
    if bankKeyed b < 262144 then set s { b with cur := b.cur ++ [fresh k] }
    else
      let l := (addEntry (overflowKey k) pkts bytes b.cur).getD (b.cur ++ [fresh (overflowKey k)])
      let t := set s { b with cur := l, fullRaised := true }
      if b.fullRaised then t
      else t.raise (1 + region) 0x0805 (word region :: wordsOf s.tally.first.toNat 2)

/-- The other die reports the disposition of an original that it held (R296). -/
def State.comeBack (s : State) (p region len : Nat) (copy : Nat) : State :=
  if copy = 0 ∧ regionDie region ≠ p / 512 then
    s.modPort p fun v => { v with crossPkts := v.crossPkts - 1, crossBytes := v.crossBytes - len }
  else s

/-- The frame of an original, or of a mirror copy, is still in reception at its ingress port: its length is not known yet. -/
def State.inReception (s : State) (p : Nat) (k : Pkt) : Bool :=
  decide (k.copy ≤ 16) && !k.known && (match (s.port p).rx with | some x => decide (x.pktId = k.root) | none => false)

/-- The bytes of the frame in reception at a port are owed to an entry of the current bank. -/
def State.owe (s : State) (p region : Nat) (key : TKey) (trunc : Option Nat := none) : State :=
  s.modPort p fun v =>
    { v with rx := v.rx.map fun x =>
      { x with owed := x.owed ++ [{ region := region, key := key, trunc := trunc, first := s.tally.first }] } }

/-- Folds the disposition of a packet that `region` decides (R294); a frame of the host or of the Riwen engine is
no received packet and enters no tally (R360, R412). -/
def State.fold (s : State) (region : Nat) (k : Pkt) (d : Disp) (reason egress bytes : Nat) : State :=
  match k.ingress with
  | none => s
  | some p =>
    let key : TKey :=
      { ingress := p, egress := egress, cls := k.cls, disp := d, reason := BitVec.ofNat 8 reason, copy := k.copy }
    let s := if s.inReception p k then (s.foldKey region key 1 0).owe p region key k.trunc else s.foldKey region key 1 bytes
    s.comeBack p region (if k.known then k.len else 0) k.copy

/-- A frame has ended: its bytes go to an entry that they are owed to, in the bank of the entry's period while that is not
closed. (DEDUCED: log entry 179.) -/
def State.payBytes (s : State) (length : Nat) (o : Owed) : State :=
  let len := match o.trunc with | some t => min t length | none => length
  let late : Bool := match s.tally.prev with | some q => decide (q.first = o.first) && !q.closed | none => false
  if s.dieStopped (regionDie o.region) then s
  else if decide (s.tally.first ≠ o.first) && late then
    let b := tget s.tally.banks o.region {}
    let l := ((addEntry o.key 0 len b.prev).orElse fun _ => addEntry (overflowKey o.key) 0 len b.prev).getD b.prev
    { s with tally := { s.tally with banks := tins s.tally.banks o.region { b with prev := l } } }
  else s.foldKey o.region o.key 0 len

/-- The dropped disposition of an original or of a copy. -/
def Pkt.dropDisp (k : Pkt) : Disp := if k.copy = 0 then .dropped else .copyDropped

/-- The reasons that R293 lists for COPY_DROPPED. -/
def copyReasons : List Nat :=
  [rsWred, rsBufferExhausted, rsQuota, rsGlacierFull, rsLifetime, rsPortDown, rsFaultDiscard, rsHostPathFull]

/-- The reason of a packet that a rule drops: that rule's own, but for a copy whose list in R293 leaves it out, where which of the listed ones it
carries is open. (DESIGN CHOICE: log entry 178.) -/
def State.dropReason (s : State) (k : Pkt) (reason : Nat) : Nat × State :=
  if k.copy = 0 ∨ copyReasons.contains reason = true then (reason, s)
  else
    let f := s.fresh
    (copyReasons.getD (f.1 % copyReasons.length) 0, f.2)

/-- The region of a packet's ingress port. -/
def Pkt.inRegion (k : Pkt) : Nat := laneRegion (k.ingress.getD 0)

/-- Drops a packet at its ingress, before its egress port is fixed. -/
def State.dropIn (s : State) (k : Pkt) (reason : Nat) : State :=
  s.fold k.inRegion k k.dropDisp reason egressNone k.len

/-- Drops a packet whose egress port is fixed, decided in its ingress region. (DESIGN CHOICE: log entry 201.) -/
def State.dropInAt (s : State) (k : Pkt) (reason : Nat) : State :=
  s.fold k.inRegion k k.dropDisp reason (k.egress.getD egressNone) k.len

/-- Drops a packet in its egress region. -/
def State.dropOut (s : State) (k : Pkt) (reason : Nat) : State :=
  s.fold (laneRegion (k.egress.getD 0)) k k.dropDisp reason (k.egress.getD egressNone) k.len

/-! ### Latency histograms -/

/-- The bin of a latency (R308). -/
def histBin (shift lat : Nat) : Nat :=
  if lat < 2 ^ shift then 0 else min 15 (Nat.log2 lat - shift + 1)

/-- Adds a transmitted frame to its queue's histogram. -/
def State.histogram (s : State) (q lat : Nat) : State :=
  if s.tally.histEn then
    let b := histBin s.tally.histShift.toNat lat
    s.modQueue q fun v => if v.histFrozen.contains b then v else { v with hist := tins v.hist b (satAdd 48 (tget v.hist b 0) 1) }
  else s

/-! ### Dump units -/

/-- What a unit's header says beyond its stream, source and records (Table 9-5). -/
structure UnitHead where
  gen     : BitVec 8
  stepped : Bool := false
  merged  : Bool := false
  west    : Bool := false
  east    : Bool := false
  overflow : Bool := false
  first   : Nat
  last    : Nat
  count   : Nat
  recSeq  : Nat := 0
  /-- The time of the closing boundary; none for a unit timed at its creation. -/
  time    : Option (Nat × BitVec 16) := none
  deriving DecidableEq, Repr

/-- Zero words up to a multiple of 32 bytes. -/
def padUnit (ws : List Word) : List Word := ws ++ List.replicate ((8 - ws.length % 8) % 8) 0

/-- The words of a unit: the header of Table 9-5 with its CHECK, then the records. -/
def unitWords (s : State) (stream source seq : Nat) (h : UnitHead) (records : List Word) : List Word :=
  let body := padUnit records
  let w0 := pack [(0, stream), (3, if source = 0 then 0 else source - 1), (5, if source = 0 then 1 else 0),
    (16, h.gen.toNat), (24, b2n h.stepped), (25, b2n h.merged), (26, b2n h.west), (27, b2n h.east),
    (28, b2n h.overflow)]
  let head := [w0, word (64 + 4 * body.length)] ++ wordsOf seq 2 ++ wordsOf h.first 2 ++ wordsOf h.last 2 ++
    wordsOf ((h.time.map (·.1)).getD s.time.ns) 2 ++
    [word ((h.time.map (·.2.toNat)).getD (s.time.frac.toNat / 2 ^ 32)), word h.count] ++ wordsOf h.recSeq 2 ++ [0]
  head ++ [crc32c (wordsToBytes (head ++ [0] ++ body))] ++ body

/-- A unit is made: it takes the next UNIT_SEQ of its stream and source and waits for its ring; a stream whose ring is
disabled produces no unit (R302, R304). (DEDUCED: log entry 102.) -/
def State.addUnit (s : State) (stream source : Nat) (h : UnitHead) (records : List Word) : State :=
  let k := stream * 8 + source
  let seq := tget s.tally.unitSeq k 0
  if (tget s.tally.rings stream {}).en = false then s
  else { s with tally := { s.tally with
      unitSeq := tins s.tally.unitSeq k (seq + 1)
      units := s.tally.units ++
        [{ stream := stream, source := source, seq := seq
           words := unitWords s stream source seq.toNat h records }] } }

/-- The header of a unit of a lossy stream, made now. -/
def State.lossyHead (s : State) (count : Nat) : UnitHead :=
  { gen := s.time.bellGen, first := s.time.beat.toNat, last := s.time.beat.toNat, count := count }

end Sys2Proof.Machine
end

