-- ==== Sys2Proof/Machine/Detectors.lean ====
section
/-!
DEFINITION. Detectors as shared operations (R379, R401 to R403): counting a detection, taking a pending injection, the
error log, and a recovery that ends.
-/

namespace Sys2Proof.Machine

/-- The detectors of Table 12-1. -/
def dGranaryCe : Nat := 0x01
def dGranaryUe : Nat := 0x02
def dQueueLink : Nat := 0x03
def dTableCe : Nat := 0x04
def dTableUe : Nat := 0x05
def dClusterState : Nat := 0x06
def dPipeParity : Nat := 0x07
def dRegionState : Nat := 0x08
def dGlacierCe : Nat := 0x09
def dGlacierData : Nat := 0x0A
def dGlacierDesc : Nat := 0x0B
def dGlacierStack : Nat := 0x0C
def dD2dCrc : Nat := 0x0D
def dD2dWire : Nat := 0x0E
def dD2dDown : Nat := 0x0F
def dFecDegrade : Nat := 0x10
def dLinkFault : Nat := 0x11
def dWatchdog : Nat := 0x12
def dCsUncorrected : Nat := 0x13
def dDoubleFree : Nat := 0x14
def dImbalance : Nat := 0x15
def dClockLoss : Nat := 0x16
def dThermalWarn : Nat := 0x17
def dThermalTrip : Nat := 0x18
def dVoltage : Nat := 0x19
def dCmdBuf : Nat := 0x1A

/-- The word that an engine's image puts at an address: zeros with valid ECC beyond it (R365). -/
def Steward.intact (g : Steward) (a : Nat) : BitVec 160 := g.image.words.getD a ((Config.wordCode 0).zeroExtend 160 <<< 144)

/-- The control-store word at an address. -/
def Steward.store (g : Steward) (a : Nat) : BitVec 160 := (tget? g.damaged a).getD (g.intact a)

/-- INSTANCE that means every instance (R405, R406). -/
def allInst : Nat := 0xFFFFF

def detKey (det inst : Nat) : Nat := det * 2 ^ 20 + inst

/-- The source of a detector's events: its region's steward, or the central steward (R402). -/
def detSource (det inst : Nat) : Nat :=
  if det = 0x01 ∨ det = 0x02 then 1 + inst / 64
  else if det = 0x03 ∨ det = 0x04 ∨ det = 0x05 ∨ det = 0x08 then 1 + inst
  else if det = 0x06 then 1 + inst / 4
  else if det = 0x07 then 1 + inst / 8
  else if det = 0x10 ∨ det = 0x11 then 1 + laneRegion inst
  else 0

/-- The port that an event of a detector names. -/
def detPort (det inst : Nat) : Option Nat :=
  if det = 0x10 ∨ det = 0x11 ∨ det = 0x15 then some inst else none

def State.det (s : State) (det inst : Nat) : Detector := tget s.err.dets (detKey det inst) {}

def State.setDet (s : State) (det inst : Nat) (d : Detector) : State :=
  { s with err := { s.err with dets := tset s.err.dets (detKey det inst) {} d } }

/-- The configuration in force for an instance. -/
def State.detCfg (s : State) (det inst : Nat) : DetCfg :=
  tget s.err.cfgs (detKey det inst) (tget s.err.cfgs (detKey det allInst) {})

/-- Raises an event of a detector. -/
def State.raiseDet (s : State) (code det inst : Nat) (rest : List Word) : State :=
  s.raise (detSource det inst) code ([word det, word inst] ++ rest) (detPort det inst)

/-- The bits that a pattern turns over in a word of 64 data bits and 8 check bits (R381, R400). -/
def Injection.flips (j : Injection) : Nat :=
  ((List.range 64).filter fun i => j.pattern.getLsbD i).length + ((List.range 8).filter fun i => j.check.getLsbD i).length

/-- The address that an injection names: of the control store, its microword (R400). -/
def Injection.place (j : Injection) : Nat := if j.det = dCsUncorrected then j.address.toNat % 16384 else j.address.toNat

/-- The detectors whose detections tell the address that ERR_INJECT names. -/
def addressedDets : List Nat :=
  [dGranaryCe, dGranaryUe, dQueueLink, dTableCe, dTableUe, dClusterState, dRegionState, dGlacierCe, dGlacierData, dGlacierDesc,
   dCsUncorrected, dDoubleFree, dCmdBuf]

/-- The detectors of uncorrectable errors alone: a single-bit pattern into one of their words is corrected and detected by none. -/
def ueOnlyDets : List Nat := [dClusterState, dRegionState, dGlacierDesc, dCmdBuf]

/-- The pattern is corrected where it strikes, without a detection of this detector (R381). -/
def Injection.corrected (j : Injection) : Bool := ueOnlyDets.contains j.det && decide (j.flips ≤ 1)

/-- An injection touches a detection at an address: one made once at its own address alone, the others at the next access (R400,
R401). (DEDUCED: log entry 131.) -/
def Injection.touches (j : Injection) (det inst addr : Nat) : Bool :=
  decide (j.det = det) && decide (j.inst = inst) && j.due &&
    (decide (j.mode ≠ 1) || !addressedDets.contains det || decide (j.place = addr))

/-- Whether an injection touches a detection (R401). -/
def State.injected (s : State) (det inst addr : Nat) : Bool := s.err.injections.any fun j => j.touches det inst addr

/-- A pending injection has been made once more; it ends after once, armed, or its COUNT, with INJECT_DONE (R401). A periodic one
waits for its next period. -/
def State.endInjection (s : State) (j : Injection) : State :=
  let others := s.err.injections.erase j
  if j.mode = 2 ∧ (j.count = 0 ∨ j.made + 1 < j.count) then
    { s with err := { s.err with
      injections := others ++ [{ j with det := j.aim, made := j.made + 1, due := false, struck := false }] } }
  else ({ s with err := { s.err with injections := others } }).raiseDet 0x0904 j.aim j.inst [word (j.made + 1)]

/-- The injection that touches a detection has been made. -/
def State.useInjection (s : State) (det inst addr : Nat) : State :=
  match s.err.injections.find? fun j => j.touches det inst addr with
  | none => s
  | some j => s.endInjection j

/-- The injection that waits for the next access of a member and is not in place yet: not one made once, which was put in place
at once (R400). -/
def State.waiting? (s : State) (det inst : Nat) : Option Injection :=
  s.err.injections.find? fun j => decide (j.det = det) && decide (j.inst = inst) && j.due && !j.struck && decide (j.mode ≠ 1)

/-- The pattern of an injection is put in place. -/
def State.putInPlace (s : State) (j : Injection) : State :=
  { s with err := { s.err with
    injections := s.err.injections.map fun (i : Injection) => if i = j then { i with struck := true } else i } }

/-- A detection, touched by an injection or not: counted, reported (a corrected one once per beat and instance), and the injection that
caused it used (R379, R401). -/
def State.detectAs (s : State) (det inst addr : Nat) (uncorr inj : Bool) : State :=
  let d := s.det det inst
  let b := s.time.beatRun
  let cfg := s.detCfg det inst
  let tell := cfg.eventEn && (uncorr || decide (d.evBeat ≠ some b))
  let d' : Detector :=
    { d with
        corrected := if uncorr then d.corrected else satAdd 48 d.corrected 1
        uncorrected := if uncorr then satAdd 32 d.uncorrected 1 else d.uncorrected
        injected := if inj then satAdd 32 d.injected 1 else d.injected
        lastBeat := s.time.beat
        evBeat := if uncorr || !cfg.eventEn then d.evBeat else some b }
  let t := s.setDet det inst d'
  let t := { t with err := { t.err with lastInst := tins t.err.lastInst det inst } }
  let t := if tell then t.raiseDet 0x0901 det inst [word (b2n uncorr), word addr, word (b2n inj)] else t
  t.useInjection det inst addr

/-- A detection of now. (DESIGN CHOICE: log entry 157.) -/
def State.detect (s : State) (det inst addr : Nat) (uncorr : Bool) : State := s.detectAs det inst addr uncorr (s.injected det inst addr)

/-- An access, at an address or by a scrub at every one, to an ECC word of a memory whose single-bit and double-bit errors are two
detectors: the injection that waits for it, into either of them or with one bit into the further one `also`, decides by its pattern which of the two
the access meets (R381, R400). The answer is how many bits it turns over, and the address it names.
(DEDUCED: log entry 161.) -/
def State.eccMeets (s : State) (ce ue also inst : Nat) (addr : Option Nat) : State × Option (Nat × Nat) :=
  match s.err.injections.find? fun j =>
      (decide (j.det = ce) || decide (j.det = ue) || decide (j.det = also) && decide (j.flips = 1)) && decide (j.inst = inst) && j.due &&
        (decide (j.mode ≠ 1) || decide (addr = none) || decide (addr = some j.place)) with
  | none => (s, none)
  | some j =>
    let met := if j.flips = 1 then ce else ue
    ({ s with err := { s.err with
      injections := s.err.injections.map fun (i : Injection) => if i = j then { i with det := met } else i } },
      some (j.flips, j.place))

/-- A real error that a row tells, in a word whose memory's errors are those of the detectors `fam`, and the injection that waits for
the same access are one detection of the detector `det` (R401). -/
def State.eccReal (s : State) (fam : List Nat) (det inst addr : Nat) : State :=
  match s.err.injections.find? fun j =>
      fam.contains j.det && decide (j.inst = inst) && j.due && (decide (j.mode ≠ 1) || decide (j.place = addr)) with
  | none => s
  | some j => { s with err := { s.err with
      injections := s.err.injections.map fun (i : Injection) => if i = j then { i with det := det } else i } }

/-- An access to words of a unit that no row tells: a pattern that waits for the next access is met; whether the word that a pattern
was put into once is one of them is a free value. The answer is the address that the pattern names (R400). -/
def State.unitMeets (s : State) (det inst : Nat) : State × Option Nat :=
  match s.err.injections.find? fun j => decide (j.det = det) && decide (j.inst = inst) && j.due with
  | none => (s, none)
  | some j =>
    if j.mode ≠ 1 then (s, some j.place)
    else
      let x := s.fresh
      (x.2, if x.1 % 2 = 0 then some j.place else none)

/-- Writes a record to the error log of 1,024 records (R403). (DEDUCED: log entry 130.) -/
def State.logErr (s : State) (r : LogRec) : State :=
  { s with err := { s.err with
      log := (s.err.log ++ [{ r with seq := s.err.logSeq }]).drop (s.err.log.length + 1 - 1024)
      logSeq := s.err.logSeq + 1 } }

/-- The record of a detection of now. -/
def State.logNow (s : State) (det inst addr action discarded : Nat) (uncorr injected : Bool) : State :=
  s.logErr
    { seq := 0, det := det, inst := inst, uncorr := uncorr, injected := injected, address := word addr
      action := action, discarded := min discarded 0xFFFFFF, beat := s.time.beat, gen := s.time.bellGen
      ns := s.time.ns }

/-- A recovery ends: counted, written to the log and reported (R379, Table 12-5). -/
def State.recovered (s : State) (det inst addr action duration discarded : Nat) (uncorr injected : Bool) : State :=
  let d := s.det det inst
  ((s.setDet det inst { d with recoveries := satAdd 32 d.recoveries 1 }).logNow det inst addr action discarded uncorr
    injected).raiseDet 0x0902 det inst [word action, word duration, word discarded]

/-- The mark of a detection of now, from before `detect` uses its injection up. -/
def State.mark (s : State) (det inst addr : Nat) : DetMark :=
  { det := det, inst := inst, addr := addr, injected := s.injected det inst addr, startNs := s.time.runNs, beat := s.time.beat
    gen := s.time.bellGen, ns := s.time.ns }

/-- The record of a detection, with the detection's time. -/
def State.logMark (s : State) (m : DetMark) (action discarded : Nat) : State :=
  s.logErr
    { seq := 0, det := m.det, inst := m.inst, uncorr := true, injected := m.injected, address := word m.addr
      action := action, discarded := min discarded 0xFFFFFF, beat := m.beat, gen := m.gen, ns := m.ns }

/-- A recovery that began with a detection ends: counted, written to the log with the detection's time, and reported. -/
def State.recoverMark (s : State) (m : DetMark) (action discarded : Nat) : State :=
  let d := s.det m.det m.inst
  ((s.setDet m.det m.inst { d with recoveries := satAdd 32 d.recoveries 1 }).logMark m action discarded).raiseDet 0x0902
    m.det m.inst [word action, word (s.time.runNs - m.startNs), word discarded]

/-- The recoveries that a die has in progress, each with what it has discarded: of its clusters, its glacier, its allocator counts and
its table copies. -/
def State.dieMarks (s : State) (d : Nat) : List (DetMark × Nat) :=
  (s.err.fences.filterMap fun (e : Nat × Fence) => if e.1 / 16 = d then some (e.2.mark, e.2.discarded) else none) ++
    ((s.glacier d).audits.map fun m => (m, (s.glacier d).orphans.length)) ++
    (s.regions.flatMap fun (e : Nat × Region) => if regionDie e.1 = d then e.2.recount.map fun m => (m, 0) else []) ++
    (s.tbl.copies.filterMap fun (e : Nat × CopyState) => if regionDie e.1 = d then (e.2.rebuilding.getD none).map fun m => (m, 0) else none)

/-- The recoveries that the reset of a die cuts short do not end; their detections are written to the error log all the same (R379).
(DESIGN CHOICE: log entry 215.) -/
def State.logCut (s : State) (d : Nat) : State := (s.dieMarks d).foldl (fun t e => t.logMark e.1 0 e.2) s

/-- A detection that is recovered at once, in place; how many ns that takes is open. -/
def State.detectRecover (s : State) (det inst addr action discarded : Nat) (uncorr : Bool) : State :=
  let inj := s.injected det inst addr
  let x := s.fresh
  (x.2.detect det inst addr uncorr).recovered det inst addr action (x.1 % 2 ^ 32) discarded uncorr inj

/-- The detection of now, recovered within `bound` ns; how long it takes is open within that. -/
def State.detectWithin (s : State) (det inst addr action bound discarded : Nat) (uncorr : Bool) : State :=
  let inj := s.injected det inst addr
  let x := s.fresh
  (x.2.detect det inst addr uncorr).recovered det inst addr action (x.1 % (bound + 1)) discarded uncorr inj

/-- One copy of a link word goes bad: which of the two is open. -/
def State.spoilLink (s : State) (r : Nat) (addr : Word) (flips : Nat) : State :=
  let x := s.fresh
  x.2.modRegion r fun g => { g with badLinks := g.badLinks ++ [{ addr := addr, second := x.1.testBit 0, flips := flips }] }

/-- A region's link words are read, with the injection that waits for this: an uncorrectable copy is used no more and rewritten from its
twin; a single-bit error is corrected by the copy's own check bits and is no detection (R383). (DEDUCED: log entry 163.) -/
def State.readLinks (s : State) (r : Nat) : State :=
  let s := match s.waiting? dQueueLink r with
    -- with a real error on the same access the two are one detection (R401)
    | some j => if (s.region r).badLinks.isEmpty then (s.putInPlace j).spoilLink r j.address j.flips else s
    | none => s
  let bad := (s.region r).badLinks
  if bad.isEmpty then s
  else
    bad.foldl
      (fun t l =>
        if 2 ≤ l.flips then t.detectRecover dQueueLink r l.addr.toNat 0 0 true else t.useInjection dQueueLink r l.addr.toNat)
      (s.modRegion r fun g => { g with badLinks := [] })

/-- A fault that an injection holds for its DURATION (R400). -/
def State.held (s : State) (det inst : Nat) : Bool :=
  match tget? s.err.forced (detKey det inst) with
  | some t => decide (s.time.runPs < t)
  | none => false

/-- A detection with no recovery but its record. -/
def State.detectLog (s : State) (det inst addr : Nat) : State :=
  let inj := s.injected det inst addr
  (s.detect det inst addr true).logNow det inst addr 0 0 true inj

/-- Such a detection that an injection may have touched before (R401). -/
def State.detectTouched (s : State) (det inst addr : Nat) (touched : Bool) : State :=
  let inj := touched || s.injected det inst addr
  (s.detectAs det inst addr true inj).logNow det inst addr 0 0 true inj

/-- A unit is declared failed (UNIT_FAILED). (DEDUCED: log entry 139.) -/
def State.unitFailed (s : State) (det inst kind : Nat) : State :=
  let d := s.det det inst
  (s.setDet det inst { d with failed := true }).raiseDet 0x0903 det inst [word kind]

end Sys2Proof.Machine
end

