-- ==== Sys2Proof/Machine/Buffers.lean ====
section
/-!
DEFINITION. The granary and the glacier as shared operations: pools and charges (R187 to R193), ingress accounting with
XOFF and XON (R199, R86), WRED (R196 to R198), glacier blocks, quotas and credit (R207 to R212), a packet's age (R213),
and the return of cells and blocks (R214).
-/

namespace Sys2Proof.Machine

/-! ### Frames that the MAC sends by itself -/

/-- The MAC counts a frame transmitted with a correct FCS (Table 3-4). -/
def State.macTxGood (s : State) (p len : Nat) (dst : List Byte) : State :=
  let kind := if dst.take 6 = List.replicate 6 (0xFF : Byte) then 45
    else if (byteAt dst 0).getLsbD 0 then 44 else 43
  (((s.mac p 41).mac p 42 len).mac p kind).mac p (55 + sizeBin len)

/-- Adds to the rate meter's count `i` of a port (R313). -/
def State.rateAdd (s : State) (p i n : Nat) : State :=
  s.modPort p fun v =>
    if v.rateEn then { v with rateRun := setAt v.rateRun i (v.rateRun.getD i 0 + BitVec.ofNat 64 n) } else v

/-- A frame's transmission has ended, of the MAC's own frames too, which have no class: TX_PACKETS and TX_BYTES of the performance counters
(R309) and of the port's rate meter (R313). -/
def State.countTx (s : State) (p : Nat) (cls : Option Nat) (len : Nat) : State :=
  (((s.perf { event := 0x032, addr := some p, cls := cls }).perf { event := 0x033, addr := some p, cls := cls } len).rateAdd p 2 1).rateAdd
    p 3 len

/-- The destination address of pause and PFC frames (R86). -/
def pauseDst : List Byte := [0x01, 0x80, 0xC2, 0x00, 0x00, 0x01]

/-- The clean-frame count after a frame that did not underrun (R96). -/
def Port.clean (v : Port) : Port :=
  if v.cleanCount.toNat + 1 < 65536 then { v with cleanCount := v.cleanCount + 1 }
  else
    { v with cleanCount := 0, ctThresh := if v.ctBase.toNat < v.ctThresh.toNat then v.ctThresh - 1 else v.ctThresh }

/-- An XOFF frame of the priority leaves at this instant, or waits where there is none. -/
def Port.xoffAt (v : Port) (n : Nat) (at_ : Option Nat) : Port :=
  { v with pause := tins v.pause n { tget v.pause n {} with xoffSent := at_ } }

/-- A pause frame, or a PFC frame for priority `n`, leaves the port (R86). -/
def State.emitPause (s : State) (p n quanta : Nat) : State :=
  let v := s.port p
  let s := ((s.macTxGood p 64 pauseDst).countTx p none 64).modPort p fun v => (v.xoffAt n (some s.time.runPs)).clean
  let sa := bytesOf v.pauseSa.toNat 6
  if v.fcMode = 2 then (s.mac p (47 + n)).emit (.pauseFrame p (2 ^ n) quanta pauseDst sa)
  else (s.mac p 46).emit (.pauseFrame p 0 quanta pauseDst sa)

/-- Sends a pause frame, or a PFC frame for priority `n`, with these quanta: between data frames, ahead of every queued one, and only
from UP. (DEDUCED: log entry 44.) -/
def State.sendPause (s : State) (p n quanta : Nat) : State :=
  match s.port? p with
  | none => s
  | some v =>
    if v.state ≠ .up then s.modPort p fun v => v.xoffAt n (some s.time.runPs)
    else if v.tx.isSome then s.modPort p fun v => { v.xoffAt n none with macQueue := v.macQueue ++ [.pause n quanta] }
    else s.emitPause p n quanta

/-! ### Ingress accounting -/

/-- The priority of a queue index by a port's PRIO_MAP; 0 in PAUSE mode. -/
def Port.prioOf (v : Port) (idx : Nat) : Nat :=
  if v.fcMode = 1 then 0 else (v.prioMap.toNat >>> (3 * idx)) % 8

/-- ING_CELLS of a priority: the cells held under the queue indices that PRIO_MAP gives it (R199). -/
def Port.ingOf (v : Port) (n : Nat) : Nat :=
  ((v.ing.filter fun e => decide (v.prioOf e.1 = n)).map Prod.snd).foldl (· + ·) 0

/-- Enters or leaves XOFF on a priority as its count now says, sending the frame (R86, R199). (DEDUCED: log entry 80.) -/
def State.xoffTest (s : State) (p n : Nat) : State :=
  match s.port? p with
  | none => s
  | some v =>
    let u := tget v.pause n {}
    if v.fcMode = 0 ∨ (v.fcMode = 1 ∧ n ≠ 0) then s
    else if u.xoff = false ∧ v.xoffTh.toNat ≤ v.ingOf n then
      (s.setPort p { v with pause := tins v.pause n { u with xoff := true } }).sendPause p n v.txQuanta.toNat
    else if u.xoff = true ∧ v.ingOf n ≤ v.xonTh.toNat then
      (s.setPort p { v with pause := tins v.pause n { u with xoff := false } }).sendPause p n 0
    else s

/-- The cells that a packet of an ingress port holds change by `d`. -/
def State.ingAdd (s : State) (k : Pkt) (d : Int) : State :=
  match k.ingress with
  | none => s
  | some p =>
    let i := k.qidx.toNat
    let t := s.modAccount p fun v => { v with ing := tset v.ing i 0 (((tget v.ing i 0 : Nat) : Int) + d).toNat }
    t.xoffTest p ((t.port p).prioOf i)

/-- Tests every priority of a port (R86, R199). -/
def State.xoffAll (s : State) (p : Nat) : State := (List.range 8).foldl (fun t n => t.xoffTest p n) s

/-! ### Pools -/

def Charge.total (c : Charge) : Nat := c.queue + c.port + c.shared + c.headroom + c.refill

/-- The cells of every reserve of the configured ports of a region. -/
def State.portReserves (s : State) (r : Nat) : Nat :=
  ((s.regionPorts r).map fun p =>
    (s.port p).portReserve.toNat + ((List.range 16).map fun i => (s.queue (16 * p + i)).reserve.toNat).foldl (· + ·) 0)
    |>.foldl (· + ·) 0

/-- The derived size of a region's shared pool, negative when the reserves are too large (R189). -/
def State.sharedSize (s : State) (r : Nat) : Int :=
  let g := s.region r
  (327680 : Int) - g.retired.length - g.refillReserve.toNat - g.headroom.toNat - s.portReserves r

/-- Shared cells that can be granted (R191, R193). -/
def State.sharedFree (s : State) (r : Nat) : Nat := (s.sharedSize r - (s.region r).sharedUsed).toNat

/-! ### The cell lists (R186) -/

/-- Cells of a frame length (R187). -/
def cellsOf (len : Nat) : Nat := ceilDiv len 256

/-- The numbers, within a list, of its cells that are out of it, rising. -/
def Region.outOf (g : Region) (l : Nat) : List Nat :=
  (g.drawn.filter fun e => decide (e.1 % 256 = l)).map fun e => e.1 / 256

/-- The `i`-th number that a rising list leaves out. -/
def nthFree (i : Nat) (out : List Nat) : Nat := out.foldl (fun j o => if o ≤ j then j + 1 else j) i

/-- The next list in rotation that is not empty and that holds none of the packet's cells. -/
def Region.nextList (g : Region) (mine : List Nat) : Nat → Nat → Option Nat
  | _, 0 => none
  | l, n + 1 =>
    if mine.any (fun c => decide (c % 256 = l)) || decide (1280 ≤ (g.outOf l).length) then g.nextList mine ((l + 1) % 256) n
    else some l

/-- Draws one cell for a packet that has `mine`. Which cell of the list it is, is open. (DESIGN CHOICE: log entry 171.) -/
def State.drawCell (s : State) (r : Nat) (mine : List Nat) : State × List Nat :=
  let g := s.region r
  match g.nextList mine g.rotation 256 with
  | none => (s, mine)
  | some l =>
    let x := s.fresh
    let out := g.outOf l
    let c := 256 * nthFree (x.1 % (1280 - out.length)) out + l
    (x.2.modRegion r fun g => { g with drawn := tins g.drawn c (), rotation := (l + 1) % 256 }, mine ++ [c])

/-- Draws `n` cells more. -/
def State.drawCells (s : State) (r : Nat) (mine : List Nat) : Nat → State × List Nat
  | 0 => (s, mine)
  | n + 1 => let x := s.drawCell r mine; x.1.drawCells r x.2 n

/-- Cells go back to their lists; a retired one does not (R382). -/
def Region.putBack (g : Region) (cells : List Nat) : Region :=
  { g with drawn := cells.foldl (fun t c => if thas g.retired c then t else tdel t c) g.drawn }

/-- How many of a packet's bytes have reached the granary. -/
def Pkt.present (k : Pkt) : Nat :=
  if k.refilling then 0
  else if k.known then k.len
  else match k.trunc with | some t => min t k.data.length | none => k.data.length

/-- The packet with the cells that its data has come to need. -/
def State.fill (s : State) (q : Nat) (k : Pkt) : State × Pkt :=
  let x := s.drawCells (queueRegion q) k.cells (cellsOf k.present - k.cells.length)
  (x.1, { k with cells := x.2 })

/-- The dynamic threshold test of R193. -/
def dtOk (held s free alpha : Nat) : Bool := decide ((held + s) * 64 ≤ free * 2 ^ alpha)

/-- A packet's length after its edit, padding included (R163). -/
def Pkt.edited (k : Pkt) : Nat := max 64 ((k.len : Int) + k.delta).toNat

/-- OVERHEAD of a port in bytes (R233). -/
def Port.overheadBytes (v : Port) : Int := signed 7 v.overhead.toNat

/-- The virtual time of a queue's tier. -/
def Port.vOf (v : Port) (q : Nat) : BitVec 32 := if isExpress q then v.vExpress else v.vOrdinary

/-- COST of a packet at a queue (R230). -/
def headCost (v : Port) (x : Queue) (k : Pkt) : Nat :=
  ceilDiv (((k.edited : Int) + v.overheadBytes).toNat * 1024) x.weight.toNat

/-- The head of a queue's granary segment. -/
def State.headId (s : State) (q : Nat) : Option Nat := (s.queue q).granary.head?.map (·.id)

/-- A packet that has become the head of its queue is tagged from V (R230); `old` was the head before. -/
def State.tagHead (s : State) (q : Nat) (old : Option Nat) : State :=
  let x := s.queue q
  match x.granary with
  | [] => s.setQueue q { x with headF := none, deferred := false, noFit := false }
  | k :: _ =>
    if old = some k.id ∧ x.headF.isSome = true then s
    else
      let v := s.port (queuePort q)
      s.setQueue q
        { x with headF := some (v.vOf q + BitVec.ofNat 32 (headCost v x k)), deferred := false, noFit := false }

/-- Charges a packet's cells to their pools and links it at the tail of its queue's granary segment. -/
def State.link (s : State) (q : Nat) (k : Pkt) (c : Charge) : State :=
  let p := queuePort q
  let r := laneRegion p
  let old := s.headId q
  let x := s.fill q { k with charge := c, cells := [] }
  let t := x.1.modQueue q fun v =>
    { v with
        granary := v.granary ++ [x.2]
        reserveUsed := v.reserveUsed + c.queue
        sharedHeld := v.sharedHeld + c.shared
        grDepth := v.grDepth + c.total
        peak := BitVec.ofNat 20 (max v.peak.toNat (v.grDepth + c.total)) }
  let t := t.modPort p fun v => { v with portUsed := v.portUsed + c.port }
  let t := t.modRegion r fun g =>
    { g with
        sharedUsed := g.sharedUsed + c.shared
        headroomUsed := g.headroomUsed + c.headroom
        refillUsed := g.refillUsed + c.refill }
  ((t.tagHead q old).perf { event := 0x037, addr := some q, cls := some k.cls.toNat } c.total).ingAdd k c.total

/-- Returns cells of a packet of queue `q` to the pools they were charged to (R214). -/
def State.freeCells (s : State) (q : Nat) (k : Pkt) (c : Charge) : State :=
  let p := queuePort q
  let r := laneRegion p
  let t := s.modQueue q fun v =>
    { v with
        reserveUsed := v.reserveUsed - c.queue
        sharedHeld := v.sharedHeld - c.shared
        grDepth := v.grDepth - c.total }
  let t := t.modPort p fun v => { v with portUsed := v.portUsed - c.port }
  let t := t.modRegion r fun g =>
    { g with
        sharedUsed := g.sharedUsed - c.shared
        headroomUsed := g.headroomUsed - c.headroom
        refillUsed := g.refillUsed - c.refill }
  t.ingAdd k (-(c.total : Int))

/-- A packet's drawn cells go back to their lists. -/
def State.putBack (s : State) (q : Nat) (cells : List Nat) : State := s.modRegion (queueRegion q) fun g => g.putBack cells

/-- The part of a charge that `n` cells given back take, in the reverse order of charging (R187). -/
def Charge.giveBack (c : Charge) (n : Nat) : Charge :=
  let h := min n c.headroom
  let sh := min (n - h) c.shared
  let rf := min (n - h - sh) c.refill
  let po := min (n - h - sh - rf) c.port
  let qu := min (n - h - sh - rf - po) c.queue
  { queue := qu, port := po, shared := sh, headroom := h, refill := rf }

def Charge.minus (a b : Charge) : Charge :=
  { queue := a.queue - b.queue, port := a.port - b.port, shared := a.shared - b.shared
    headroom := a.headroom - b.headroom, refill := a.refill - b.refill }

/-! ### A packet's age -/

/-- The age of a packet: steps of the time base taken out, modulo 2^32 (R213). -/
def State.age (s : State) (k : Pkt) : Nat :=
  (BitVec.ofNat 32 s.time.ns - BitVec.ofNat 32 k.stampNs - (s.time.stepSum - k.stepSum)).toNat

/-- The packet is older than its queue's LIFETIME. -/
def State.expired (s : State) (q : Nat) (k : Pkt) : Bool :=
  decide ((s.queue q).lifetime.toNat * 100000 < s.age k)

/-! ### Glacier blocks -/

def blockSize (pool : Nat) : Nat :=
  match pool with
  | 0 => 512
  | 1 => 2048
  | 2 => 10240
  | _ => 16384

/-- Block size of every pool from the smallest that holds `len` bytes (R207). -/
def fittingPools (len : Nat) : List Nat := (List.range 4).filter fun i => decide (len ≤ blockSize i)

def Glacier.pool (g : Glacier) (i : Nat) : Pool := g.pools.getD i { free := 0, stack := 0 }

def Glacier.setPool (g : Glacier) (i : Nat) (p : Pool) : Glacier := { g with pools := setAt g.pools i p }

/-- Raises GLACIER_POOL_EMPTY for a die and pool, at most once per beat. -/
def State.poolEmpty (s : State) (r d i : Nat) : State :=
  let g := s.glacier d
  let b := s.time.beatRun
  if (g.pool i).emptyBeat = some b then s
  else
    (s.setGlacier d (g.setPool i { g.pool i with emptyBeat := some b })).raise (1 + r) 0x0502 [word d, word i]

/-- Counts and reports a refused free or pop of a block (R209): kind 0 or 1. -/
def State.doubleFree (s : State) (d i block kind : Nat) : State :=
  ((s.modGlacier d fun g => { g with doubleFrees := satAdd 16 g.doubleFrees 1 }).detectRecover dDoubleFree (4 * d + i)
    block 0 0 true).raise (1 + 2 * d) 0x0504 [word d, word i, word block, word kind]

/-- An injection into POOL_DOUBLE_FREE: a second free of a named free block, or the pointer of a named allocated block is pushed into the
cache; nothing while its block is in the other state (R392). -/
def State.strikePool (s : State) (j : Injection) : State :=
  let d := j.inst / 4
  let i := j.inst % 4
  let a := j.address.toNat
  let held := thas ((s.glacier d).pool i).allocated a
  if j.pattern = 0 then if held then s else (s.putInPlace j).doubleFree d i a 0
  else if held then
    (s.putInPlace j).modGlacier d fun g =>
      let p := g.pool i
      g.setPool i { p with freed := a :: p.freed, cache := p.cache + 1 }
  else s

/-- The next access of a pool meets the injection that waits for it. -/
def State.poolAccess (s : State) (d i : Nat) : State :=
  match s.waiting? dDoubleFree (4 * d + i) with
  | some j => s.strikePool j
  | none => s

/-- The next free pointer of a pool whose allocation bit is clear; pointers of allocated blocks are discarded. -/
def popBlock (p : Pool) : List Nat → List Nat × List Nat × Option Nat
  | [] => ([], [], none)
  | b :: bs =>
    if thas p.allocated b then
      let r := popBlock p bs
      (b :: r.1, r.2.1, r.2.2)
    else ([], bs, some b)

/-- `n` pointers leave the top of the cache; those that it lacks wait for the fetch in flight, which a fall below 1,024 pointers
issues. (DEDUCED: log entry 172.) -/
def Pool.pop (p : Pool) (n : Nat) : Pool :=
  let level := p.cache - n
  { p with
      cache := level, owed := p.owed + (n - p.cache)
      fetching := p.fetching || (decide (level < 1024) && decide (0 < p.stack)) }

/-- Takes a block of pool `i` on die `d` (R208, R209): a pool without a free block discards the pointers that it still holds. -/
def State.takeBlock (s : State) (d i : Nat) : State × Option Nat :=
  let s := s.poolAccess d i
  let p := (s.glacier d).pool i
  let r := popBlock p p.freed
  let s := r.1.foldl (fun t b => t.doubleFree d i b 1) s
  let g := s.glacier d
  let p : Pool := { (g.pool i).pop r.1.length with freed := r.2.1 }
  if p.free = 0 then (s.setGlacier d (g.setPool i p), none)
  else
    let b := r.2.2.getD p.fresh
    let p' : Pool :=
      { p.pop 1 with
          free := p.free - 1, fresh := if r.2.2.isSome then p.fresh else p.fresh + 1
          allocated := tins p.allocated b () }
    ((s.setGlacier d (g.setPool i p')).perf { event := 0x041, addr := some (4 * d + i) }, some b)

/-- Frees a block; a block that is free already is refused (R209). -/
def State.freeBlock (s : State) (d i b : Nat) : State :=
  let s := s.poolAccess d i
  let g := s.glacier d
  let p := g.pool i
  if thas p.allocated b then
    let level := p.cache + 1
    s.setGlacier d (g.setPool i
      { p with
          free := p.free + 1, freed := b :: p.freed, allocated := tdel p.allocated b, cache := level
          writing := p.writing || decide (3072 < level) })
  else s.doubleFree d i b 0

/-! ### Quotas and credit -/

/-- The requester of a queue: its region and class (R210). -/
def requester (q : Nat) : Nat := 2 * queueRegion q + b2n (isExpress q)

def State.quota (s : State) (k : Nat) : Quota := tget s.quotas k {}

def mib : Nat := 1048576

/-- The use of a requester above its reserve. (DEDUCED: log entry 79.) -/
def Quota.above (x : Quota) (used : Nat) : Nat := used - x.reserve.toNat * mib

/-- The die's shared glacier capacity in bytes, and what is charged to it. -/
def State.glShared (s : State) (d : Nat) : Nat × Nat :=
  let rs := (List.range 4).map fun j => s.quota (4 * d + j)
  (22384 * mib - (rs.map fun x => x.reserve.toNat * mib).foldl (· + ·) 0,
   (rs.map fun x => x.above x.used).foldl (· + ·) 0)

/-- The glacier's credits of a die, raised at 7.5 Tb/s up to 2 MiB to now (R211). -/
def State.raiseCredit (s : State) (d : Nat) : State :=
  s.modGlacier d fun g =>
    let e := (s.time.runNs - g.creditNs) * 1875 + b2n g.creditHalf
    { g with
        spillCredit := min 2097152 (g.spillCredit + e / 2)
        refillCredit := min 2097152 (g.refillCredit + e / 2)
        creditNs := s.time.runNs, creditHalf := e.testBit 0 }

/-- The answer of a spill. -/
inductive Spill where
  | made | quota | full | credit
  deriving DecidableEq, Repr

/-- The first pool, of those that fit, that has a free block. -/
def State.freePool (s : State) (r d : Nat) : List Nat → State × Option Nat
  | [] => (s, none)
  | i :: is =>
    if (s.glacier d).failed then State.freePool (s.poolEmpty r d i) r d is
    else if 0 < ((s.glacier d).pool i).free then (s, some i)
    else State.freePool ((s.takeBlock d i).1.poolEmpty r d i) r d is

/-- Spills a packet to the glacier (R201, R207, R210, R211): by Table 6-3 the quota is tested first, then the shared
capacity and the blocks, then the credit. -/
def State.spill (s : State) (q : Nat) (k : Pkt) : State × Spill :=
  let r := queueRegion q
  let d := regionDie r
  let who := requester q
  let s := s.raiseCredit d
  let fit := fittingPools k.len
  let f := s.freePool r d fit
  let size := blockSize ((f.2.getD (fit.headD 3)))
  let x := s.quota who
  let cap := s.glShared d
  let draw := x.above (x.used + size) - x.above x.used
  if x.limit.toNat * mib < x.used + size then
    let b := s.time.beatRun
    if x.quotaBeat = some b then (s, .quota)
    else
      (({ s with quotas := tset s.quotas who {} { x with quotaBeat := some b } }).raise (1 + r) 0x0503
        [word r, word (b2n (isExpress q))], .quota)
  else if 0 < draw ∧ cap.1 < cap.2 + draw then (s, .full)
  else
    match f.2 with
    | none => (f.1, .full)
    | some i =>
      let s := f.1
      if (s.glacier d).spillCredit < k.len then (s, .credit)
      else
        let t := s.takeBlock d i
        match t.2 with
        | none => (t.1, .full)
        | some b =>
          let s := t.1.modGlacier d fun g => { g with spillCredit := g.spillCredit - k.len }
          let s := { s with quotas := tset s.quotas who {} { s.quota who with used := (s.quota who).used + size } }
          let s := s.modQueue q fun v =>
            { v with
                glacier := v.glacier ++ [{ k with block := some (i, b), charge := {} }]
                spilling := true, spilled := v.spilled.add 1 }
          (s.perf { event := 0x035, addr := some q, cls := some k.cls.toNat }, .made)

/-- A packet's glacier block goes back to its pool and to its requester's account (R214). -/
def State.giveBlock (s : State) (q : Nat) (k : Pkt) : State :=
  match k.block with
  | none => s
  | some (i, b) =>
    let who := requester q
    let t := s.freeBlock (regionDie (queueRegion q)) i b
    let x := t.quota who
    { t with quotas := tset t.quotas who {} { x with used := x.used - blockSize i } }

/-- The depth of a queue's glacier segment in cells (R196). -/
def Queue.glCells (v : Queue) : Nat := (v.glacier.map fun k => cellsOf k.len).foldl (· + ·) 0

/-! ### WRED -/

/-- The average of a queue at an arrival (R196). -/
def Queue.nextAvg (v : Queue) : BitVec 32 :=
  let d := min (v.grDepth + v.glCells) 16777215
  let a : Int := if d = 0 then 0 else v.avg.toNat
  BitVec.ofInt 32 (a + ((d * 256 : Int) - a) / (2 ^ v.wredW.toNat : Nat))

/-- The profile of a colour at a queue. -/
def Queue.wredOf (v : Queue) (colour : BitVec 2) : Nat :=
  (if colour = 0 then v.wredGreen else if colour = 1 then v.wredYellow else v.wredRed).toNat

/-- What WRED decides for a packet: 0 nothing, 1 drop, 2 mark (R197, R198). -/
def wredDecide (w : Wred) (profile avg r : Nat) (ect : Bool) : Nat :=
  let a := avg / 256
  let act :=
    if profile = 0 ∨ a < w.minTh.toNat then false
    else if a < w.maxTh.toNat then
      decide (r < w.maxP.toNat * (a - w.minTh.toNat) * 256 / (w.maxTh.toNat - w.minTh.toNat))
    else decide (0 < w.maxP.toNat)
  if act then
    if w.ecn && ect && (decide (a < w.maxTh.toNat) || w.ecnOver) then 2 else 1
  else 0

/-- The header slot of the packet's outer IP header: its type and offset. -/
def HdrVec.ip (v : HdrVec) : Option HdrSlot := v.slots.find? fun h => decide (h.htype = 0x03 ∨ h.htype = 0x04)

/-- The packet carries an IPv4 or IPv6 header whose ECN field, bits [9:8] of C9, is ECT(0) or ECT(1). -/
def Pkt.isEct (k : Pkt) : Bool :=
  let e := ((tget k.hv.containers 9 0).toNat / 256) % 4
  k.hv.ip.isSome && decide (e = 1 ∨ e = 2)

/-- One clock of the LFSR with the polynomial x^32 + x^22 + x^2 + x + 1 (R197, R316), in one of its forms: Fibonacci or Galois,
shifting left or right. (DESIGN CHOICE: log entry 76.) -/
def lfsrStep (form : Nat) (x : BitVec 32) : BitVec 32 :=
  match form % 4 with
  | 0 => (x <<< 1) ||| BitVec.ofNat 32 (b2n (((x.getLsbD 31 ^^ x.getLsbD 21) ^^ x.getLsbD 1) ^^ x.getLsbD 0))
  | 1 => (x >>> 1) ||| BitVec.ofNat 32 (b2n (((x.getLsbD 0 ^^ x.getLsbD 10) ^^ x.getLsbD 30) ^^ x.getLsbD 31) * 2 ^ 31)
  | 2 => if x.getLsbD 31 then (x <<< 1) ^^^ 0x00400007 else x <<< 1
  | _ => if x.getLsbD 0 then (x >>> 1) ^^^ 0xE0000200 else x >>> 1

/-- The LFSR `n` clocks on. -/
def lfsrRun : Nat → BitVec 32 → BitVec 32
  | 0, x => x
  | n + 1, x => lfsrRun n (lfsrStep Config.lfsrForm x)

/-! ### Dropping what a queue holds -/

/-- The queue that a packet is for. -/
def Pkt.queueNo (k : Pkt) : Nat := 16 * k.egress.getD 0 + k.qidx.toNat

/-- Returns everything a packet of queue `q` holds: its cells and its block. -/
def State.freePkt (s : State) (q : Nat) (k : Pkt) : State := ((s.freeCells q k k.charge).putBack q k.cells).giveBlock q k

/-- Drops a packet that has been taken out of queue `q`'s segments. -/
def State.dropHeld (s : State) (q : Nat) (k : Pkt) (reason : Nat) : State :=
  match k.hostTx with
  | some h => (s.freePkt q k).emit (.txDone h.fn h.pos reason)
  | none => (s.freePkt q k).dropOut k reason

/-- A host frame that will not be sent with its stamp requested raises TX_STAMP_LOST to its function (R279, R356). -/
def State.stampLost (s : State) (q : Nat) (k : Pkt) : State :=
  match k.hostTx with
  | some h =>
    if h.tsReq then
      s.hold (1 + laneRegion (queuePort q)) h.fn 0x0705 [word (queuePort q), h.stampId.zeroExtend 32]
    else s
  | none => s

/-- Drops a packet taken out of queue `q`, with the end of its stamp request. -/
def State.dropQueued (s : State) (q : Nat) (k : Pkt) (reason : Nat) : State :=
  (s.dropHeld q k reason).stampLost q k

end Sys2Proof.Machine
end

