-- ==== Sys2Proof/Machine/Detect.lean ====
section
/-!
DEFINITION. Port speeds and stamps (Tables 2-1, 3-1, R90), Riwen frames that the device sends (R410, R413), the link alarms of R430 and protection switching (R432).
-/

namespace Sys2Proof.Machine

/-! ### Speeds and stamps -/

/-- Data rate of a rate code in Gb/s (Table 2-1). -/
def rateGbps (code : Nat) : Nat :=
  match code with
  | 0 => 10
  | 1 => 25
  | 2 => 50
  | 3 => 100
  | 4 => 200
  | _ => 0

/-- The highest speed in Gb/s that Table 3-1 gives a width. -/
def topSpeed (width : Nat) : Nat := 200 * width

/-- The speed of a port in Gb/s: in UP that of its rate, otherwise the last it had in UP, or its top speed (R97). -/
def Port.speed (v : Port) : Nat :=
  if v.state = .up then v.width.toNat * rateGbps v.rate.toNat
  else v.lastSpeed.getD (topSpeed v.width.toNat)

/-- BYTE_PS of a port (Table 7-1). -/
def Port.bytePs (v : Port) : Nat := 8000 / v.speed

/-- The time base value with its 16-bit fraction, adjusted by a port's RX_ADJ or TX_ADJ in picoseconds (R90, R91). -/
def State.stamp (s : State) (adj : BitVec 32) (laterPs : Nat := 0) : Nat × BitVec 16 :=
  let t : Int := (s.time.ns : Int) * 65536 + s.time.frac.toNat / 2 ^ 32 + (signed 32 adj.toNat + laterPs) * 65536 / 1000
  ((t / 65536).toNat, BitVec.ofInt 16 (t % 65536))

/-! ### Frames of the MAC -/

/-- The device has a parish role. -/
def State.hasRole (s : State) : Bool := decide (s.parish.role ≠ 0)

def roleManager : BitVec 3 := 1
def roleStandby : BitVec 3 := 2
def roleRelay : BitVec 3 := 3

/-- Frame types of Table 13-3. -/
def rwCommand : Nat := 0x01
def rwReply : Nat := 0x02
def rwEvent : Nat := 0x03
def rwBell : Nat := 0x10
def rwDelayReq : Nat := 0x11
def rwDelayResp : Nat := 0x12
def rwHello : Nat := 0x13
def rwPrepare : Nat := 0x20
def rwVote : Nat := 0x21
def rwCommit : Nat := 0x22
def rwCommitAck : Nat := 0x23
def rwAbort : Nat := 0x24
def rwLinkAlarm : Nat := 0x30
def rwTallySummary : Nat := 0x40

/-- The types of Table 13-3. -/
def riwenTypes : List Nat :=
  [rwCommand, rwReply, rwEvent, rwBell, rwDelayReq, rwDelayResp, rwHello, rwPrepare, rwVote, rwCommit, rwCommitAck, rwAbort,
   rwLinkAlarm, rwTallySummary]

/-- A Riwen frame that has no effect is counted (R411). -/
def State.rejectRiwen (s : State) : State := { s with parish := { s.parish with rejects := satAdd 32 s.parish.rejects 1 } }

/-- The bytes of a Riwen frame without its FCS (R410, Table 13-2), padded to 64 bytes with it. -/
def riwenBytes (s : State) (p typ src dst : Nat) (gen : BitVec 16) (payload : List Byte) : List Byte :=
  let f := [0x03, 0x4C, 0x4E, 0, 0, 0] ++ bytesOf (s.port p).pauseSa.toNat 6 ++ [0x88, 0xB5] ++
    [1, BitVec.ofNat 8 typ] ++ netBytes payload.length 2 ++ netBytes s.parish.parishId.toNat 2 ++
    netBytes src 2 ++ netBytes dst 2 ++ netBytes gen.toNat 2 ++
    [s.time.bellGen, s.parish.depth.zeroExtend 8, 0, 0] ++ payload
  f ++ List.replicate (60 - f.length) 0

/-- The destination field of a frame to all. -/
def riwenAll : Nat := 0x8000

/-- Nothing leaves on the child ports of a standby, and of a node at depth 4 (Table 13-1, R408). -/
def State.silentPort (s : State) (p : Nat) : Bool :=
  decide ((s.port p).portRole = 3) && decide (s.parish.role ≠ roleManager) &&
    (decide (s.parish.role = roleStandby) || decide (4 ≤ s.parish.depth.toNat))

/-- The port may send frames of the parish: it is UP, the device has a role, and the port is no silent child port. -/
def State.parishPort (s : State) (p : Nat) : Bool :=
  match s.port? p with
  | none => false
  | some v => decide (v.state = .up) && s.hasRole && !s.silentPort p

/-- The port may send Riwen frames: it carries them besides (R412). -/
def State.riwenPort (s : State) (p : Nat) : Bool := (s.port p).riwenEn && s.parishPort p

/-- A Riwen frame that bypasses the queues leaves the port under this MANAGER_GEN. -/
def State.emitRiwen (s : State) (p typ dst : Nat) (gen : BitVec 16) (payload : List Byte) : State :=
  let f := riwenBytes s p typ s.parish.device.toNat dst gen payload
  (((s.macTxGood p (f.length + 4) f).countTx p none (f.length + 4)).modPort p Port.clean).emit (.riwen p typ dst f)

/-- The stamp of a frame that leaves the port now: its delimiter follows seven bytes of preamble, and TX_ADJ counts (R90, R91). -/
def State.leaveStamp (s : State) (p : Nat) : Nat × BitVec 16 := s.stamp (s.port p).txAdj (7 * (s.port p).bytePs)

/-- A full stamp in a payload: 8 bytes of ns and 2 of their fraction. -/
def stampBytes (st : Nat × BitVec 16) : List Byte := netBytes st.1 8 ++ netBytes st.2.toNat 2

/-- The payload of a BELL frame that leaves port `p` now (Table 13-3). -/
def State.bellPayload (s : State) (p : Nat) : List Byte :=
  let a := s.parish
  stampBytes (s.leaveStamp p) ++ netBytes s.time.beats.toNat 2 ++
    [BitVec.ofNat 8 (b2n (decide (s.time.state = .holdover))), 0] ++ netBytes a.masterId.toNat 8 ++
    netBytes a.actEpoch.toNat 2 ++ [BitVec.ofNat 8 a.actPhase.toNat, 0] ++ netBytes a.actBeat.toNat 6

/-- The MANAGER_GEN of a BELL frame sent now: the manager's own, or that of the last bell frame of the active upstream (R414). -/
def State.bellGenOf (s : State) : BitVec 16 := if s.parish.role = roleManager then s.parish.managerGen else s.parish.bellMgr

/-- A frame of the MAC leaves the port. -/
def State.emitMac (s : State) (p : Nat) (f : MacFrame) : State :=
  match f with
  | .pause n quanta => s.emitPause p n quanta
  | .riwen typ dst payload => s.emitRiwen p typ dst s.parish.managerGen payload
  | .bell => s.emitRiwen p rwBell riwenAll s.bellGenOf (s.bellPayload p)
  | .delayResp dst payload => s.emitRiwen p rwDelayResp dst s.parish.managerGen (payload ++ stampBytes (s.leaveStamp p))

/-- What waited for the end of a frame in transmission leaves, in order (R86, R229, R413). -/
def State.flushMac (s : State) (p : Nat) : State :=
  (s.port p).macQueue.foldl (fun t f => t.emitMac p f) (s.modPort p fun v => { v with macQueue := [] })

/-- A frame bypasses the port's queues: at once, or at the end of the frame in transmission (R413). -/
def State.bypass (s : State) (p : Nat) (f : MacFrame) : State :=
  if (s.port p).tx.isSome then s.modPort p fun v => { v with macQueue := v.macQueue ++ [f] } else s.emitMac p f

/-- Sends a Riwen frame that bypasses the port's queues. -/
def State.sendMac (s : State) (p : Nat) (f : MacFrame) : State := if s.riwenPort p then s.bypass p f else s

def State.sendRiwen (s : State) (p typ dst : Nat) (payload : List Byte) : State := s.sendMac p (.riwen typ dst payload)

/-- Hands a Riwen frame with this sender and MANAGER_GEN to the port's RIWEN_QUEUE, to be admitted as a host frame is (R413). -/
def State.passRiwen (s : State) (p typ src dst : Nat) (gen : BitVec 16) (payload : List Byte) : State :=
  if s.riwenPort p then
    let f := riwenBytes s p typ src dst gen payload
    { s with
        nextPkt := s.nextPkt + 1
        arrivals := s.arrivals ++
          [{ id := s.nextPkt, root := s.nextPkt, len := f.length + 4, data := f, stampNs := s.time.ns
             stepSum := s.time.stepSum, egress := some p, qidx := (s.port p).riwenQueue }] }
  else s

/-- The device's own frame for the port's RIWEN_QUEUE. -/
def State.queueRiwen (s : State) (p typ dst : Nat) (payload : List Byte) : State :=
  s.passRiwen p typ s.parish.device.toNat dst s.parish.managerGen payload

/-! ### Link alarms (R430) -/

/-- Sends a link alarm for an origin port on every port with ALARM_EN set but one, whether it carries other Riwen frames or not; HOPS is the sending port's ALARM_HOPS
unless the alarm is a resend. -/
def State.sendAlarm (s : State) (dev origin : Nat) (down : Bool) (cause seq : Nat) (hops : Option Nat) (but : Option Nat) : State :=
  (tkeys s.ports).foldl
    (fun t p =>
      if (t.port p).alarmEn && t.parishPort p && decide (but ≠ some p) then
        t.bypass p (.riwen rwLinkAlarm riwenAll
          (netBytes dev 2 ++ netBytes origin 2 ++ [BitVec.ofNat 8 (b2n down), BitVec.ofNat 8 cause] ++ netBytes seq 2 ++
            [BitVec.ofNat 8 (hops.getD (t.port p).alarmHops.toNat)]))
      else t) s

/-- A new fault of port `p` begins to be alarmed: 0 a link fault, 1 a degraded port taken down. -/
def State.startAlarm (s : State) (p cause : Nat) : State :=
  match s.port? p with
  | none => s
  | some v =>
    let v' := { v with alarmSeq := v.alarmSeq + 1, alarming := some cause, alarmReps := 0, alarmUps := 0 }
    (s.setPort p v').sendAlarm s.parish.device.toNat p true cause v'.alarmSeq.toNat none none

/-! ### Protection groups (R432) -/

def State.remoteDown (s : State) (p : Nat) : Bool := !(s.port p).remoteDown.isEmpty

def State.isUp (s : State) (p : Nat) : Bool := s.hasPort p && decide ((s.port p).state = .up) && (s.port p).adminUp

/-- ECMP and protection treat the port as not UP: not UP, REMOTE_DOWN, or DEGRADED under action 1. -/
def State.outOfUse (s : State) (p : Nat) : Bool :=
  !s.isUp p || s.remoteDown p || ((s.port p).degraded && decide ((s.detCfg dFecDegrade p).action = 1))

def State.setGroup (s : State) (g : Nat) (v : Protect) : State :=
  { s with parish := { s.parish with groups := tins s.parish.groups g v } }

/-- Tests one group: switches to PROTECT on a cause, and back at once when a revertive group with WTR 0 has none. -/
def State.protectTest (s : State) (g : Nat) : State :=
  match tget? s.parish.groups g with
  | none => s
  | some v =>
    if v.enable = false then s
    else if v.switched = false ∧ s.outOfUse v.working.toNat = true ∧ s.isUp v.protect.toNat = true ∧
        s.remoteDown v.protect.toNat = false then
      (s.setGroup g { v with switched := true }).raise 0 0x0B05 [word g, 1]
    else if v.switched = true ∧ v.revertive = true ∧ v.wtr = 0 ∧ s.outOfUse v.working.toNat = false then
      (s.setGroup g { v with switched := false }).raise 0 0x0B05 [word g, 0]
    else s

/-- Tests every group. -/
def State.protectAll (s : State) : State := (tkeys s.parish.groups).foldl State.protectTest s

/-- The egress port that a switched group puts in place of its WORKING port. -/
def State.protectPort (s : State) (p : Nat) : Nat :=
  match s.parish.groups.find? fun e => e.2.enable && e.2.switched && decide (e.2.working.toNat = p) with
  | some e => e.2.protect.toNat
  | none => p

end Sys2Proof.Machine
end

