-- ==== Sys2Proof/Machine/Hash.lean ====
section
/-!
DEFINITION. The hash tables of chapter 05 as shared operations: the seeded CRCs (R141), buckets and stash (R141 to R145,
R154), relocation with the cursors it crosses (R144, R172), and insertion and removal of an entry. Tables are numbered
as TBL_SEARCH numbers them: 0 exact match, 1 IPv4 pool, 2 IPv6 pool.
-/

namespace Sys2Proof.Machine

/-! ### Seeded CRCs -/

/-- One bit of a reflected CRC register. -/
def crcStep (poly r : BitVec 32) : BitVec 32 := if r.getLsbD 0 then (r >>> 1) ^^^ poly else r >>> 1

def crcFeed (poly r : BitVec 32) (b : Byte) : BitVec 32 :=
  let f := crcStep poly
  f (f (f (f (f (f (f (f (r ^^^ b.zeroExtend 32))))))))

/-- The CRC of R141: the seed loaded as it stands, the register's final contents as they stand. -/
def crcRun (poly seed : BitVec 32) (bs : List Byte) : BitVec 32 := bs.foldl (crcFeed poly) seed

def polyC : BitVec 32 := 0x82F63B78
def polyE : BitVec 32 := 0xEDB88320

/-! ### Tables, buckets and places -/

def State.ht (s : State) (t : Nat) : HTable :=
  match t with
  | 0 => s.tbl.em
  | 1 => s.tbl.v4.pool
  | _ => s.tbl.v6.pool

def State.setHt (s : State) (t : Nat) (h : HTable) : State :=
  match t with
  | 0 => { s with tbl := { s.tbl with em := h } }
  | 1 => { s with tbl := { s.tbl with v4 := { s.tbl.v4 with pool := h } } }
  | _ => { s with tbl := { s.tbl with v6 := { s.tbl.v6 with pool := h } } }

/-- HALF of a table: half its bucket count (R141, R154, Table 5-2). -/
def State.half (s : State) (t : Nat) : Nat :=
  match t, s.tbl.profile.toNat with
  | 0, _ => 131072
  | 1, 0 => 262144
  | 1, 1 => 393216
  | 1, _ => 65536
  | _, 0 => 65536
  | _, 1 => 8192
  | _, _ => 147456

def stashSize (t : Nat) : Nat := if t = 0 then 16384 else 4096

/-- The hash input of a key (R141, R154). -/
def hashInput (t : Nat) (kt : BitVec 4) (key : BitVec 129) : List Byte :=
  match t with
  | 0 => BitVec.ofNat 8 kt.toNat :: netBytes key.toNat 9
  | 1 => netBytes key.toNat 5
  | _ => netBytes key.toNat 17

/-- The two candidate buckets of a key. -/
def State.buckets (s : State) (t : Nat) (kt : BitVec 4) (key : BitVec 129) : Nat × Nat :=
  let i := hashInput t kt key
  let h := s.half t
  ((crcRun polyC s.tbl.seed0 i).toNat * h / 2 ^ 32, h + (crcRun polyE s.tbl.seed1 i).toNat * h / 2 ^ 32)

/-- The places of a bucket, in slot order. -/
def slotsOf (b : Nat) : List Nat := [4 * b, 4 * b + 1, 4 * b + 2, 4 * b + 3]

/-- The place of stash index 0 (R179). -/
def stashBase : Nat := 0x80000000

def HTable.at? (h : HTable) (loc : Nat) : Option Ent :=
  if loc < stashBase then tget? h.locs loc else tget? h.stash (loc - stashBase)

def HTable.put (h : HTable) (loc : Nat) (e : Ent) : HTable :=
  if loc < stashBase then { h with locs := tins h.locs loc e } else { h with stash := tins h.stash (loc - stashBase) e }

def HTable.del (h : HTable) (loc : Nat) : HTable :=
  if loc < stashBase then { h with locs := tdel h.locs loc } else { h with stash := tdel h.stash (loc - stashBase) }

/-- Every entry with its place, in location order. -/
def HTable.all (h : HTable) : List (Nat × Ent) := h.locs ++ h.stash.map fun e => (stashBase + e.1, e.2)

/-- Every entry of a key with its place: the candidate buckets, then the stash (R142). -/
def State.copiesOfKey (s : State) (t : Nat) (kt : BitVec 4) (key : BitVec 129) : List (Nat × Ent) :=
  let h := s.ht t
  let b := s.buckets t kt key
  ((slotsOf b.1 ++ slotsOf b.2).filterMap fun l => (tget? h.locs l).map fun e => (l, e)) ++
      (h.stash.map fun e => (stashBase + e.1, e.2))
    |>.filter fun x => decide (x.2.kt = kt) && decide (x.2.key = key)

/-- The lowest free slot of a bucket. (DEDUCED: log entry 74.) -/
def HTable.freeSlot (h : HTable) (b : Nat) : Option Nat := (slotsOf b).find? fun l => !(thas h.locs l)

/-- The lowest free stash index, as a place. -/
def HTable.freeStash (h : HTable) (t : Nat) : Option Nat :=
  ((List.range (min (stashSize t) (h.stash.length + 1))).find? fun i => !(thas h.stash i)).map (stashBase + ·)

/-! ### Cursors -/

/-- The same entry of a table. -/
def Ent.same (a b : Ent) : Bool :=
  decide (a.kt = b.kt) && decide (a.key = b.key) && decide (a.stage = b.stage)

/-- A cursor's lists after an entry moves between places (R172): 256 entries each, then overflow. -/
def Cursor.moved (c : Cursor) (e : Ent) (src dst : Nat) : Cursor :=
  if c.next ≤ src ∧ dst < c.next then
    if c.skip.any (·.same e) then { c with skip := c.skip.filter fun x => !(x.same e) }
    else if c.carry.length < 256 then { c with carry := c.carry ++ [e] }
    else { c with overflow := true }
  else if src < c.next ∧ c.next ≤ dst then
    if c.carry.any (·.same e) then { c with carry := c.carry.filter fun x => !(x.same e) }
    else if c.skip.length < 256 then { c with skip := c.skip ++ [e] }
    else { c with overflow := true }
  else c

/-- An entry is in the table no more. -/
def Cursor.gone (c : Cursor) (e : Ent) : Cursor :=
  { c with carry := c.carry.filter fun x => !(x.same e), skip := c.skip.filter fun x => !(x.same e) }

/-- An entry is rewritten where it stands: the lists name it as it is now. -/
def Cursor.renamed (c : Cursor) (e e' : Ent) : Cursor :=
  let sub (l : List Ent) : List Ent := l.map fun x => if x.same e then e' else x
  { c with carry := sub c.carry, skip := sub c.skip }

/-- Changes every open cursor of a table. -/
def State.onCursors (s : State) (t : Nat) (f : Cursor → Cursor) : State :=
  { s with tbl := { s.tbl with
      cursors := s.tbl.cursors.map fun e => if e.1 / 4 = t then (e.1, f e.2) else e } }

/-- An entry leaves a table for good: the cursors forget it, and an ageing sweep, which has visited no staged add. -/
def State.forget (s : State) (t : Nat) (e : Ent) : State :=
  let s := s.onCursors t (·.gone e)
  if t = 0 ∧ e.stage ≠ 1 then { s with tbl := { s.tbl with sweep := s.tbl.sweep.map (·.filter fun k => decide (k ≠ (e.kt, e.key))) } } else s

/-! ### Moving, placing and removing -/

/-- One move of an entry to a free place, carrying HIT and AGE (R144). -/
def State.moveEnt (s : State) (t src dst : Nat) : State :=
  match (s.ht t).at? src with
  | none => s
  | some e => (s.setHt t (((s.ht t).del src).put dst e)).onCursors t (·.moved e src dst)

/-- A copy with MOVING set and no move in progress: the other copy is cleared, then MOVING (R146). -/
def State.finishMove (s : State) (t loc : Nat) (e : Ent) : State :=
  let s := (s.copiesOfKey t e.kt e.key).foldl
    (fun u x => if x.1 ≠ loc ∧ x.2.stage = e.stage then u.setHt t ((u.ht t).del x.1) else u) s
  s.setHt t ((s.ht t).put loc { e with moving := false })

/-- Every move that was interrupted is completed, before any other table change (R146). -/
def State.finishMoves (s : State) : State :=
  (List.range 3).foldl
    (fun u t => (((u.ht t).all).filter (·.2.moving)).foldl (fun w x => w.finishMove t x.1 x.2) u) s

/-- A bucket reached by the search of R143: the places whose entries move to reach it, the last one first. -/
structure Reach where
  bucket : Nat
  path   : List Nat

/-- The other candidate bucket of the entry in a place. -/
def State.otherBucket (s : State) (t loc : Nat) : Option Nat :=
  (tget? (s.ht t).locs loc).map fun e =>
    let b := s.buckets t e.kt e.key
    if loc / 4 = b.1 then b.2 else b.1

/-- Expands places in order: the first bucket reached with a free slot, the buckets reached so far, and the next
depth (R143 steps 2 to 5). -/
def State.expand (s : State) (t : Nat) : List (Reach × Nat) → List Nat → List Reach → Option Reach × List Nat × List Reach
  | [], seen, acc => (none, seen, acc)
  | (n, loc) :: rest, seen, acc =>
    match s.otherBucket t loc with
    | none => s.expand t rest seen acc
    | some b =>
      if b ∈ seen then s.expand t rest seen acc
      else
        let r : Reach := { bucket := b, path := loc :: n.path }
        if ((s.ht t).freeSlot b).isSome then (some r, seen, acc) else s.expand t rest (b :: seen) (acc ++ [r])

/-- The breadth-first search for a path of at most so many moves. (DEDUCED: log entry 73.) -/
def State.searchPath (s : State) (t : Nat) : Nat → List Reach → List Nat → Option Reach
  | 0, _, _ => none
  | k + 1, front, seen =>
    match s.expand t (front.flatMap fun n => (slotsOf n.bucket).map fun l => (n, l)) seen [] with
    | (some r, _, _) => some r
    | (none, seen', next) => s.searchPath t k next seen'

/-- Carries a path out from its far end; answers the place that it leaves free. -/
def State.relocate (s : State) (t : Nat) : List Nat → Nat → State × Nat
  | [], free => (s, free)
  | src :: rest, free => (s.moveEnt t src free).relocate t rest src

/-- Makes a place for a key: a free slot, a slot freed by relocation, or the stash; none when there is no space (R143). -/
def State.makePlace (s : State) (t : Nat) (kt : BitVec 4) (key : BitVec 129) : Option (State × Nat) :=
  let h := s.ht t
  let b := s.buckets t kt key
  match h.freeSlot b.1, h.freeSlot b.2 with
  | some l, _ => some (s, l)
  | none, some l => some (s, l)
  | none, none =>
    match s.searchPath t 4 [⟨b.1, []⟩, ⟨b.2, []⟩] [b.1, b.2] with
    | some r =>
      match h.freeSlot r.bucket with
      | some l => some (s.relocate t r.path l)
      | none => none
    | none => (h.freeStash t).map fun l => (s, l)

/-- EM_STASH_HIGH at 12,288 stash entries, armed again below 8,192 (R145). -/
def State.stashWatch (s : State) : State :=
  let n := s.tbl.em.stash.length
  if 12288 ≤ n ∧ s.tbl.stashArmed then ({ s with tbl := { s.tbl with stashArmed := false } }).raise 0 0x0406 []
  else if n < 8192 then { s with tbl := { s.tbl with stashArmed := true } }
  else s

/-- Writes a new entry into a place. -/
def State.putEnt (s : State) (t loc : Nat) (e : Ent) : State := (s.setHt t ((s.ht t).put loc e)).stashWatch

/-- Rewrites the entry in a place. -/
def State.modEnt (s : State) (t loc : Nat) (f : Ent → Ent) : State :=
  match (s.ht t).at? loc with
  | none => s
  | some e => (s.setHt t ((s.ht t).put loc (f e))).onCursors t (·.renamed e (f e))

/-- Removes the entry in a place. -/
def State.delEnt (s : State) (t loc : Nat) : State :=
  match (s.ht t).at? loc with
  | none => s
  | some e => ((s.setHt t ((s.ht t).del loc)).forget t e).stashWatch

/-- The next table sequence number (R166). (DEDUCED: log entry 70.) -/
def State.tsnUp (s : State) : State := { s with tbl := { s.tbl with tsn := s.tbl.tsn.add 1 } }

/-- A table change of learning or ageing commits (R166, R309). -/
def State.tsnOwn (s : State) : State := s.tsnUp.perf { event := 0x014, internal := true }

end Sys2Proof.Machine
end

