-- ==== Sys2Proof/Machine/Stores.lean ====
section
/-!
DEFINITION. What chapter 05 stores beside the hash tables, as shared operations: visibility by epoch slot (R168), table
objects and their references (R164, R165), member slots, prefixes of every length (R153 to R158), and the commit, cleanup
and reversal of staged changes (R126, R168, R169).
-/

namespace Sys2Proof.Machine

/-! ### Epoch slots -/

def State.epoch? (s : State) (e : Nat) : Option Epoch := s.cif.epochs.find? fun x => decide (x.epoch.toNat = e)

def State.epochSlot (s : State) (e : Nat) : Option Bool := (s.epoch? e).bind (·.slot)

/-- The slot's thaw has passed and its cleanup has not ended. -/
def State.thawed (s : State) (slot : Bool) : Bool :=
  s.cif.epochs.any fun e => decide (e.slot = some slot) && decide (e.state = .cleaning)

/-- A mark is visible to lookups: a staged add from the thaw onward, a staged delete until it (R168). -/
def State.markSeen (s : State) (stage : BitVec 2) (slot : Bool) : Bool :=
  if stage = 1 then s.thawed slot else if stage = 2 then !(s.thawed slot) else true

def State.entSeen (s : State) (e : Ent) : Bool := s.markSeen e.stage e.slot

/-- The entry that a lookup of a key finds, with its place: the MOVING copy among two (R142). -/
def State.findEnt (s : State) (t : Nat) (kt : BitVec 4) (key : BitVec 129) : Option (Nat × Ent) :=
  let l := (s.copiesOfKey t kt key).filter fun x => s.entSeen x.2
  (l.find? (·.2.moving)).orElse fun _ => l.head?

/-- A staged change pending on a key forbids this change: an immediate one, or one under the other slot (R170).
(DEDUCED: log entry 68.) -/
def State.clash (s : State) (epoch : Nat) (slots : List Bool) : Bool :=
  slots.any fun b => decide (epoch = 0) || decide (s.epochSlot epoch ≠ some b)

/-- The slot that a staged change of an epoch takes (R169, R353): BUSY for a third epoch, EPOCH_STALE once it is
scheduled. (DEDUCED: log entry 69.) -/
def State.slotFor (s : State) (e : Nat) : Except Nat Bool :=
  let free : Option Bool :=
    if s.cif.epochs.all fun x => decide (x.slot ≠ some false) then some false
    else if s.cif.epochs.all fun x => decide (x.slot ≠ some true) then some true
    else none
  match s.epoch? e with
  | some x =>
    if x.state ≠ .staging then .error stEpochStale
    else
      match x.slot with
      | some b => .ok b
      | none => match free with | some b => .ok b | none => .error stBusy
  | none => match free with | some b => .ok b | none => .error stBusy

/-- One more staged change of an epoch, which the first one binds to its slot. -/
def State.noteChange (s : State) (e : Nat) (slot : Bool) : State :=
  match s.epoch? e with
  | some _ =>
    { s with cif := { s.cif with
        epochs := s.cif.epochs.map fun x =>
          if x.epoch.toNat = e then { x with changes := x.changes + 1, slot := some slot } else x } }
  | none =>
    { s with cif := { s.cif with
        epochs := s.cif.epochs ++ [{ epoch := BitVec.ofNat 16 e, state := .staging, slot := some slot, changes := 1 }] } }

/-- A table change takes effect: at once with epoch 0, otherwise staged under its epoch; it takes a TSN (R126, R166). -/
def State.change (s : State) (epoch : Nat) (f : State → Option Bool → State) : State × Option Ans :=
  if epoch = 0 then done (f s none).tsnUp
  else
    match s.slotFor epoch with
    | .error st => fail s st
    | .ok slot => done (f (s.noteChange epoch slot) (some slot)).tsnUp

/-- The stage mark of a new or of a deleted object: stage 1 or 2 under a slot, none at once. -/
def markOf (stage : BitVec 2) (slot : Option Bool) : Mark :=
  match slot with
  | some b => { stage := stage, slot := b }
  | none => {}

/-! ### Objects -/

/-- Object kinds: 0 next hop, 1 ECMP group, 2 edit record (R180). -/
def State.objs (s : State) (kind : Nat) : Tab Obj :=
  match kind with
  | 0 => s.tbl.hops
  | 1 => s.tbl.groups
  | _ => s.tbl.edits

def State.setObjs (s : State) (kind : Nat) (o : Tab Obj) : State :=
  match kind with
  | 0 => { s with tbl := { s.tbl with hops := o } }
  | 1 => { s with tbl := { s.tbl with groups := o } }
  | _ => { s with tbl := { s.tbl with edits := o } }

/-- The highest ID of a kind (Table 5-1). -/
def objMax (kind : Nat) : Nat := match kind with | 0 => 131071 | 1 => 4095 | _ => 16383

/-- Fields of Table 5-11. -/
def Obj.port (o : Obj) : Nat := fld (wd o.words 0) 0 10
def Obj.edit? (o : Obj) : Option Nat := if bit (wd o.words 0) 10 then some (fld (wd o.words 0) 11 14) else none
def Obj.base (o : Obj) : Nat := fld (wd o.words 0) 0 16
def Obj.size (o : Obj) : Nat := fld (wd o.words 0) 16 10

/-- The object a destination names: FWD_TYPE 1 a group, 2 a next hop. -/
def destObj (ftype fid : Nat) : Option ObjRef :=
  if ftype = 1 then some { kind := 1, id := fid } else if ftype = 2 then some { kind := 0, id := fid } else none

/-- The object a RESULT word names (R155). -/
def resultObj (w : Word) : Option ObjRef := destObj (fld w 0 2) (fld w 2 18)

/-- The object a rule names while its FWD_MODE is 1 (R123). -/
def Rule.obj (r : Rule) : Option ObjRef :=
  if fld r.act0 13 2 = 1 then destObj (fld r.act2 0 2) (fld r.act2 2 20) else none

/-- A member slot's contents as lookups see them: NEXT_HOP and VALID. -/
def State.memberSeen (s : State) (m : Member) : BitVec 17 × Bool :=
  match m.staged with
  | some (b, h, v) => if s.thawed b then (h, v) else (m.hop, m.valid)
  | none => (m.hop, m.valid)

/-- How many of these name the object. -/
def countRefs (o : ObjRef) (l : List (Option ObjRef)) : Nat := (l.filter fun x => decide (x = some o)).length

/-- What a family's prefixes name; a short prefix that has thawed stands among the committed ones already (R164). -/
def Lpm.refs (l : Lpm) (thawed : Bool → Bool) : List (Option ObjRef) :=
  ((l.pool.all.map fun e => destObj e.2.ftype.toNat e.2.fid.toNat) ++ l.short.map fun e => resultObj e.2) ++
  (l.shadow.filterMap fun e =>
    match e.2.staged with
    | some b => if thawed b then none else e.2.result.map resultObj
    | none => none) ++
  [l.defRoute.live.bind resultObj, (l.defRoute.staged.bind (·.2)).bind resultObj]

/-- The regions of a mask. -/
def maskRegions (m : BitVec 4) : List Nat := (List.range 4).filter fun r => m.getLsbD r

/-- What staged rule writes name, once per region. -/
def stagedRuleRefs (l : List (Bool × ParseChange)) : List (Option ObjRef) :=
  l.flatMap fun e =>
    match e.2 with
    | .rule m _ (some r) => (maskRegions m).map fun _ => r.obj
    | _ => []

/-- TABLE_REFS of an object (R164). -/
def State.tableRefs (s : State) (o : ObjRef) : Nat :=
  countRefs o
    ((s.tbl.em.all.map fun e => if e.2.route then none else destObj e.2.ftype.toNat e.2.fid.toNat) ++
      s.tbl.v4.refs s.thawed ++ s.tbl.v6.refs s.thawed ++
      (s.parse.regions.flatMap fun r => r.2.rules.map fun e => e.2.obj) ++ 
        stagedRuleRefs (s.parse.staged.filter fun e => !s.thawed e.1) ++
      (s.tbl.members.flatMap fun e =>
        [if e.2.valid then some { kind := 0, id := e.2.hop.toNat } else none,
         match e.2.staged with | some (_, h, true) => some { kind := 0, id := h.toNat } | _ => none]) ++
      s.tbl.hops.map fun e => e.2.edit?.map fun i => { kind := 2, id := i })

/-- Every packet that the device holds. -/
def State.packets (s : State) : List Pkt :=
  s.parseQ ++ s.arrivals ++ (s.ports.filterMap fun p => (p.2.rx.bind (·.wait)).map (·.pkt)) ++ (s.queues.flatMap fun q => q.2.granary ++ q.2.glacier) ++
  (s.ports.filterMap fun p => p.2.tx.map (·.pkt)) ++ (s.tally.hostPath.flatMap fun h => h.2.map (·.pkt)) ++
  s.glaciers.flatMap fun g => g.2.orphans

/-- INFLIGHT of an object: the packets that hold it, a packet and its copies counted once (R164).
(DEDUCED: log entry 62.) -/
def State.inflight (s : State) (o : ObjRef) : Nat :=
  ((s.packets.filter fun k => k.objs.contains o).map (·.root)).eraseDups.length

/-- An object is live to a change of an epoch (0: immediate): none when it is, otherwise the status (R165, R170). -/
def State.objRefused (s : State) (kind id epoch : Nat) : Option Nat :=
  match tget? (s.objs kind) id with
  | none => some stNotFound
  | some o =>
    if o.freeing.isSome then some stNotFound
    else if o.mark.stage = 2 then some stBusy
    else if o.mark.stage = 1 ∧ s.thawed o.mark.slot = false ∧ (epoch = 0 ∨ s.epochSlot epoch ≠ some o.mark.slot) then
      some stNotFound
    else none

/-- The checks on a destination that an entry, prefix or rule names: range, then existence (R123, R176, R178). -/
def State.destRefused (s : State) (ftype fid epoch : Nat) : Option Nat :=
  match ftype with
  | 0 => if 1023 < fid then some stBadParam else if s.hasPort fid then none else some stNotFound
  | 1 => if 4095 < fid then some stBadParam else s.objRefused 1 fid epoch
  | 2 => if 131071 < fid then some stBadParam else s.objRefused 0 fid epoch
  | _ => some stBadParam

/-- An object becomes FREE and releases its own references; a group's slots become invalid (R165). -/
def State.freeObj (s : State) (kind id : Nat) : State :=
  match tget? (s.objs kind) id with
  | none => s
  | some o =>
    let t := s.setObjs kind (tdel (s.objs kind) id)
    if kind = 1 then
      { t with tbl := { t.tbl with
          members := t.tbl.members.filter fun e => !(decide (o.base ≤ e.1) && decide (e.1 < o.base + o.size)) } }
    else t

/-- The commit of a delete: PENDING_FREE while packets hold the object, otherwise FREE (R165). -/
def State.deleteObj (s : State) (kind id : Nat) : State :=
  if s.inflight { kind := kind, id := id } = 0 then s.freeObj kind id
  else
    s.setObjs kind (tmod (s.objs kind) id fun o => { o with mark := {}, freeing := some s.time.beat })

/-! ### Prefixes -/

/-- Address width of a family: 0 IPv4, 1 IPv6. -/
def famWidth (fam : Nat) : Nat := if fam = 0 then 32 else 128

def State.lpm (s : State) (fam : Nat) : Lpm := if fam = 0 then s.tbl.v4 else s.tbl.v6

def State.setLpm (s : State) (fam : Nat) (l : Lpm) : State :=
  if fam = 0 then { s with tbl := { s.tbl with v4 := l } } else { s with tbl := { s.tbl with v6 := l } }

/-- An address cut to a prefix of length `len`. -/
def cutAddr (fam len a : Nat) : Nat := a / 2 ^ (famWidth fam - len) * 2 ^ (famWidth fam - len)

/-- The key of a pool entry: the prefix's bits, then a 1, then zeros (R154). -/
def poolKey (fam len pfx : Nat) : BitVec 129 := BitVec.ofNat 129 (2 * pfx + 2 ^ (famWidth fam - len))

/-- The direct-table index of an address, and a short prefix's number in `Lpm.short`. -/
def directIdx (fam a : Nat) : Nat := a / 2 ^ (famWidth fam - 16)
def shortKey (fam len pfx : Nat) : Nat := 65536 * len + directIdx fam pfx

/-- The longest committed prefix of length 1 to 16 over a direct index, with its length (R157). -/
def Lpm.cover (l : Lpm) (d : Nat) : Option (Nat × Word) :=
  (l.short.filter fun e => decide (d / 2 ^ (16 - e.1 / 65536) = e.1 % 65536 / 2 ^ (16 - e.1 / 65536))).getLast?.map
    fun e => (e.1 / 65536, e.2)

/-- The length of length table `j`: fixed for IPv4, assigned for IPv6 (R153). -/
def Lpm.tableLen (l : Lpm) (fam j : Nat) : Option Nat := if fam = 0 then some (17 + j) else tget? l.lengths j

/-- Some pool prefix of this length lies under a direct index. -/
def Lpm.under (l : Lpm) (fam len d : Nat) : Bool :=
  l.pool.all.any fun e => decide (e.2.klen = len) && decide (e.2.key.toNat / 2 ^ (famWidth fam - 15) = d)

/-- The direct entry: RESULT and SRC_LEN of the committed prefixes, LEN_MASK of the pool (R153, R156, R157).
(DESIGN CHOICE: log entry 72.) -/
def State.direct (s : State) (fam d : Nat) : Dir :=
  let l := s.lpm fam
  let c := l.cover d
  { result := (c.map Prod.snd).getD 0
    srcLen := BitVec.ofNat 5 ((c.map Prod.fst).getD 0)
    lenMask := BitVec.ofNat 16 (((List.range 16).map fun j =>
      match l.tableLen fam j with
      | some n => b2n (l.under fam n d) * 2 ^ j
      | none => 0).foldl (· + ·) 0) }

/-- Drops length tables with no entry left and gives a new length the lowest free table (R153). -/
def Lpm.assign (l : Lpm) (len : Option Nat) : Lpm :=
  let kept := l.lengths.filter fun e => l.pool.all.any fun x => decide (x.2.klen = e.2)
  match len with
  | none => { l with lengths := kept }
  | some n =>
    if kept.any fun e => decide (e.2 = n) then { l with lengths := kept }
    else
      match (List.range 16).find? fun j => !(thas kept j) with
      | some j => { l with lengths := tins kept j n }
      | none => { l with lengths := kept }

/-- A RESULT word of a pool entry (R155). -/
def Ent.result (e : Ent) : Word := pack [(0, e.ftype.toNat), (2, e.fid.toNat % 2 ^ 18), (20, e.cls.toNat % 2 ^ 12)]

/-- A pool entry for a prefix. -/
def poolEnt (fam len pfx : Nat) (result : Word) (m : Mark) : Ent :=
  { klen := len, key := poolKey fam len pfx, ftype := BitVec.ofNat 2 (fld result 0 2)
    fid := BitVec.ofNat 20 (fld result 2 18), cls := BitVec.ofNat 16 (fld result 20 12)
    stage := m.stage, slot := m.slot }

/-- A prefix as a lookup or a search finds it: its place (R179), its result, its length and its marks. -/
structure PrefixHit where
  loc    : Nat
  result : Word
  len    : Nat
  stage  : BitVec 2 := 0
  slot   : Bool := false
  moving : Bool := false
  deriving DecidableEq, Repr

/-- The default-route register as lookups see it. -/
def State.defSeen (s : State) (fam : Nat) : Option Word :=
  let d := (s.lpm fam).defRoute
  match d.staged with
  | some (b, w) => if s.thawed b then w else d.live
  | none => d.live

/-- A staged change of a short prefix, if one is pending. -/
def Lpm.stagedShadow (l : Lpm) (fam len pfx : Nat) : Option Bool :=
  (l.shadow.find? fun e =>
    decide (e.2.plen = len) && decide (e.2.bits.toNat = directIdx fam pfx) && e.2.staged.isSome).bind (·.2.staged)

/-- Stage marks of a short prefix or of the default route, from the slot of the change pending on it.
(DEDUCED: log entry 67.) -/
def State.pendingMark (s : State) (b : Option Bool) : BitVec 2 × Bool :=
  match b with
  | some x => (if s.thawed x then 1 else 2, x)
  | none => (0, false)

/-- The prefix of exactly this length, as it stands (R171, R179). -/
def State.prefixAt (s : State) (fam len pfx : Nat) : Option PrefixHit :=
  let l := s.lpm fam
  if len = 0 then
    let m := s.pendingMark (l.defRoute.staged.map (·.1))
    (s.defSeen fam).map fun w => { loc := 0xC0000000, result := w, len := 0, stage := m.1, slot := m.2 }
  else if len ≤ 16 then
    let m := s.pendingMark (l.stagedShadow fam len pfx)
    (tget? l.short (shortKey fam len pfx)).map fun w =>
      { loc := 0x40000000 + directIdx fam pfx, result := w, len := len, stage := m.1, slot := m.2 }
  else
    (s.findEnt (1 + fam) 0 (poolKey fam len pfx)).map fun e =>
      { loc := e.1, result := e.2.result, len := len, stage := e.2.stage, slot := e.2.slot, moving := e.2.moving }

/-- The longest of the hits. -/
def longest : List PrefixHit → Option PrefixHit
  | [] => none
  | h :: t =>
    match longest t with
    | some g => if g.len ≤ h.len then some h else some g
    | none => some h

/-- The longest-prefix lookup (R156): the length tables of LEN_MASK, the direct result, the default route. -/
def State.lpmFind (s : State) (fam a : Nat) : Option PrefixHit :=
  let l := s.lpm fam
  let d := s.direct fam (directIdx fam a)
  let probes := (List.range 16).filterMap fun j =>
    if d.lenMask.getLsbD j then (l.tableLen fam j).bind fun n => s.prefixAt fam n (cutAddr fam n a) else none
  match longest probes with
  | some h => some h
  | none =>
    if d.srcLen ≠ 0 then s.prefixAt fam d.srcLen.toNat (cutAddr fam d.srcLen.toNat a)
    else s.prefixAt fam 0 0

/-- The slots of the staged changes pending on a prefix. -/
def State.prefixPending (s : State) (fam len pfx : Nat) : List Bool :=
  let l := s.lpm fam
  if len = 0 then (l.defRoute.staged.map (·.1)).toList
  else if len ≤ 16 then (l.stagedShadow fam len pfx).toList
  else (s.copiesOfKey (1 + fam) 0 (poolKey fam len pfx)).filterMap fun e =>
    if e.2.stage ≠ 0 then some e.2.slot else none

/-! ### Learning limits (R149) -/

/-- LEARNED_COUNT of a port: its visible dynamic entries, so that a staged add counts from its thaw.
(DESIGN CHOICE: log entry 174.) -/
def State.learnedCount (s : State) (p : Nat) : Nat :=
  (s.tbl.em.all.filter fun e =>
    !e.2.static && decide (e.2.ftype = 0) && decide (e.2.fid.toNat = p) && s.entSeen e.2).length

def noLimit : Nat := 0x1FFFFF

/-- The count is at the port's limit, so that one more entry would pass it. -/
def State.limitReached (s : State) (p : Nat) : Bool :=
  let l := (s.port p).learnLimit.toNat
  decide (l ≠ noLimit) && decide (l ≤ s.learnedCount p)

/-- AT_LIMIT follows the count, and LEARN_LIMIT is armed again below the limit. -/
def State.settleLimits (s : State) : State :=
  { s with ports := s.ports.map fun e =>
      let full := s.limitReached e.1
      (e.1, { e.2 with atLimit := full, limitArmed := e.2.limitArmed || !full }) }

/-! ### The parsing stores -/

/-- The fields of PARSER_PORT_CONFIG word 2 (Table 4-9). -/
def Port.parserCfg (v : Port) (w : Word) : Port :=
  { v with
      startState := BitVec.ofNat 8 (fld w 0 8), plAction := BitVec.ofNat 2 (fld w 8 2)
      keyProfile := BitVec.ofNat 4 (fld w 10 4), defClass := BitVec.ofNat 4 (fld w 14 4)
      defQueue := BitVec.ofNat 4 (fld w 18 4) }

def State.classRegion (s : State) (r : Nat) : ClassRegion := tget s.parse.regions r {}

def State.setClassRegion (s : State) (r : Nat) (c : ClassRegion) : State :=
  { s with parse := { s.parse with regions := tins s.parse.regions r c } }

/-- Changes the classification store of every region of a mask, in turn (R126). -/
def State.onRegions (s : State) (m : BitVec 4) (f : ClassRegion → ClassRegion) : State :=
  (maskRegions m).foldl (fun t r => t.setClassRegion r (f (t.classRegion r))) s

/-- A change of a parsing object or key profile commits. -/
def State.applyParse (s : State) (c : ParseChange) : State :=
  match c with
  | .portCfg p w => s.modPort p fun v => v.parserCfg w
  | .pstate i st => { s with parse := { s.parse with states := tins s.parse.states i st } }
  | .ptrans i tr => { s with parse := { s.parse with trans := tins s.parse.trans i tr } }
  | .pattern m i p => s.onRegions m fun c => { c with patterns := tset c.patterns i {} p }
  | .range m i r => s.onRegions m fun c => { c with ranges := tset c.ranges i {} r }
  | .profile m i sl => s.onRegions m fun c => { c with profiles := tins c.profiles i sl }
  | .rule m i (some r) => s.onRegions m fun c => { c with rules := tins c.rules i r }
  | .rule m i none => s.onRegions m fun c => { c with rules := tdel c.rules i }
  | .emProfile i w2 w3 w4 =>
    { s with tbl := { s.tbl with
        emProfiles := tset s.tbl.emProfiles i {}
          { kt := BitVec.ofNat 2 (fld w2 0 4), a := BitVec.ofNat 6 (fld w3 0 6), b := BitVec.ofNat 6 (fld w3 8 6)
            c := BitVec.ofNat 6 (fld w3 16 6), d := BitVec.ofNat 6 (fld w3 24 6), e := BitVec.ofNat 6 (fld w4 0 6) } } }

/-- Two changes concern one object (a region mask names one object in each region). -/
def ParseChange.meets (a b : ParseChange) : Bool :=
  match a, b with
  | .portCfg p _, .portCfg q _ => decide (p = q)
  | .pstate i _, .pstate j _ => decide (i = j)
  | .ptrans i _, .ptrans j _ => decide (i = j)
  | .pattern m i _, .pattern n j _ => decide (i = j) && decide (m &&& n ≠ 0)
  | .range m i _, .range n j _ => decide (i = j) && decide (m &&& n ≠ 0)
  | .profile m i _, .profile n j _ => decide (i = j) && decide (m &&& n ≠ 0)
  | .rule m i _, .rule n j _ => decide (i = j) && decide (m &&& n ≠ 0)
  | .emProfile i _ _ _, .emProfile j _ _ _ => decide (i = j)
  | _, _ => false

/-- What is left of a staged rule change once another of the same epoch supersedes it in some regions. -/
def ParseChange.left (old new : ParseChange) : Option ParseChange :=
  match old, new with
  | .rule m i r, .rule n j _ => if i ≠ j then some old else if m &&& ~~~n = 0 then none else some (.rule (m &&& ~~~n) i r)
  | _, _ => some old

/-- A change of a parsing object: refused with BUSY on a clash, otherwise committed or staged (R126, R170). -/
def State.parseChange (s : State) (epoch : Nat) (c : ParseChange) : State × Option Ans :=
  let slots := (s.parse.staged.filter fun e => e.2.meets c).map (·.1)
  if s.clash epoch slots then fail s stBusy
  else
    s.change epoch fun t slot =>
      match slot with
      | none => t.applyParse c
      | some b => { t with parse := { t.parse with staged := (t.parse.staged.filterMap fun e => if e.1 = b then (e.2.left c).map fun x => (b, x) else some e) ++ [(b, c)] } }

/-! ### Commit, cleanup and reversal of an epoch's staged changes -/

/-- A table without the entries that match, and with the others changed. -/
def HTable.rework (h : HTable) (drop : Ent → Bool) (f : Ent → Ent) : HTable :=
  { locs := (h.locs.filter fun e => !(drop e.2)).map fun e => (e.1, f e.2)
    stash := (h.stash.filter fun e => !(drop e.2)).map fun e => (e.1, f e.2) }

/-- Removes the entries of one stage and slot and makes the slot's others live, telling the cursors. -/
def State.reworkHt (s : State) (slot : Bool) (stage : BitVec 2) (t : Nat) : State :=
  let h := s.ht t
  let drop (e : Ent) : Bool := decide (e.slot = slot) && decide (e.stage = stage)
  let live (e : Ent) : Ent := if e.slot = slot then { e with stage := 0, slot := false } else e
  let s := (h.all.filter fun e => drop e.2).foldl (fun u e => u.forget t e.2) s
  let s := (h.all.filter fun e => !drop e.2 && decide (live e.2 ≠ e.2)).foldl
    (fun u e => u.onCursors t (·.renamed e.2 (live e.2))) s
  (s.setHt t (h.rework drop live)).stashWatch

/-- The entries of every table at a cleanup (stage 2 goes) or a reversal (stage 1 goes). -/
def State.reworkTables (s : State) (slot : Bool) (stage : BitVec 2) : State :=
  let s := (List.range 3).foldl (fun t k => t.reworkHt slot stage k) s
  { s with tbl := { s.tbl with v4 := s.tbl.v4.assign none, v6 := s.tbl.v6.assign none } }

/-- Objects of one stage under a slot. (DEDUCED: log entry 71.) -/
def State.markedObjs (s : State) (slot : Bool) (stage : BitVec 2) : List ObjRef :=
  (List.range 3).flatMap fun k =>
    (s.objs k).filterMap fun e =>
      if e.2.mark.stage = stage ∧ e.2.mark.slot = slot then some { kind := k, id := e.1 } else none

def State.unmarkObj (s : State) (o : ObjRef) : State :=
  s.setObjs o.kind (tmod (s.objs o.kind) o.id fun x => { x with mark := {} })

/-- The slot's staged short prefixes commit. -/
def Lpm.thaw (l : Lpm) (slot : Bool) : Lpm :=
  { l with
      short := l.shadow.foldl
        (fun sh e =>
          if e.2.staged = some slot then
            match e.2.result with
            | some w => tins sh (65536 * e.2.plen + e.2.bits.toNat) w
            | none => tdel sh (65536 * e.2.plen + e.2.bits.toNat)
          else sh) l.short }

/-- The slot's thaw (R168, R169): what is not marked in place commits here. -/
def State.thawTables (s : State) (slot : Bool) : State :=
  let s := { s with tbl := { s.tbl with v4 := s.tbl.v4.thaw slot, v6 := s.tbl.v6.thaw slot } }
  let s := (s.markedObjs slot 2).foldl (fun t o => t.deleteObj o.kind o.id) s
  (s.parse.staged.filter fun e => decide (e.1 = slot)).foldl (fun t e => t.applyParse e.2) s

def Lpm.cleanup (l : Lpm) (slot : Bool) : Lpm :=
  { l with
      shadow := l.shadow.map fun e => if e.2.staged = some slot then (e.1, { e.2 with staged := none }) else e
      defRoute := match l.defRoute.staged with
        | some (b, w) => if b = slot then { live := w, staged := none } else l.defRoute
        | none => l.defRoute }

def Lpm.revert (l : Lpm) (slot : Bool) : Lpm :=
  { l with
      shadow := l.shadow.filter fun e => decide (e.2.staged ≠ some slot)
      defRoute := match l.defRoute.staged with
        | some (b, _) => if b = slot then { l.defRoute with staged := none } else l.defRoute
        | none => l.defRoute }

/-- Member slots without their staged change, which `keep` puts in place first. -/
def settleMembers (l : Tab Member) (slot keep : Bool) : Tab Member :=
  (l.map fun e =>
    match e.2.staged with
    | some (b, h, v) =>
      if b = slot then (e.1, if keep then { hop := h, valid := v } else { e.2 with staged := none }) else e
    | none => e).filter fun e => decide (e.2 ≠ {})

def State.dropStagedParse (s : State) (slot : Bool) : State :=
  { s with parse := { s.parse with staged := s.parse.staged.filter fun e => decide (e.1 ≠ slot) } }

/-- The thaw's cleanup ends (R169): marks return to STAGE 0, deleted entries are cleared. -/
def State.cleanTables (s : State) (slot : Bool) : State :=
  let s := s.reworkTables slot 2
  let s := { s with tbl := { s.tbl with
    v4 := s.tbl.v4.cleanup slot, v6 := s.tbl.v6.cleanup slot, members := settleMembers s.tbl.members slot true } }
  (((s.markedObjs slot 1).foldl State.unmarkObj s).dropStagedParse slot).settleLimits

/-- The staged changes of a slot are reversed (R169): adds are cleared, deletes return to STAGE 0. -/
def State.revertTables (s : State) (slot : Bool) : State :=
  let s := s.reworkTables slot 1
  let s := { s with tbl := { s.tbl with
    v4 := s.tbl.v4.revert slot, v6 := s.tbl.v6.revert slot, members := settleMembers s.tbl.members slot false } }
  let s := (s.markedObjs slot 1).foldl (fun t o => t.freeObj o.kind o.id) s
  (((s.markedObjs slot 2).foldl State.unmarkObj s).dropStagedParse slot).settleLimits

/-! ### Thaw and abandonment of an epoch (R353 to R355) -/

def State.setEpoch (s : State) (e : Nat) (f : Epoch → Epoch) : State :=
  { s with cif := { s.cif with epochs := s.cif.epochs.map fun x => if x.epoch.toNat = e then f x else x } }

def State.dropEpoch (s : State) (e : Nat) : State :=
  { s with cif := { s.cif with epochs := s.cif.epochs.filter fun x => decide (x.epoch.toNat ≠ e) } }

/-- A scheduled epoch thaws in beat `b`: EPOCH_THAWED, and CLEANING until its cleanup ends. -/
def State.thawEpoch (s : State) (e b : Nat) : State :=
  let t := s.setEpoch e fun x => { x with state := .cleaning, prepared := false }
  let t := match s.epochSlot e with | some slot => (t.thawTables slot).settleLimits | none => t
  t.raise 0 0x0102 ([word e] ++ wordsOf b 2)

/-- An epoch in STAGING or SCHEDULED is abandoned with its cause: 0 command, 1 bell, 2 parish, 3 recovery (R355). -/
def State.abandonEpoch (s : State) (e cause : Nat) : State :=
  match s.epoch? e with
  | none => s
  | some x =>
    if x.state = .staging ∨ x.state = .scheduled then
      let t := match x.slot with | some slot => s.revertTables slot | none => s
      (t.dropEpoch e).raise 0 0x0103 [word e, word cause]
    else s

/-! ### Copies that lend and borrow (R174, R175) -/

/-- A region whose own copy serves its lookups, on a die that runs. -/
def State.healthyCopy (s : State) (r : Nat) : Bool := (s.copyOf r).rebuilding.isNone && !s.dieStopped (regionDie r)

/-- The copy that a region borrows and rebuilds from: its sibling's, or the lowest healthy one of the other die. -/
def State.lender (s : State) (r : Nat) : Option Nat :=
  let sib := if r % 2 = 0 then r + 1 else r - 1
  if s.healthyCopy sib then some sib
  else (List.range 4).find? fun x => decide (regionDie x ≠ regionDie r) && s.healthyCopy x

/-- The region's lookups move to the borrowed path and its copy is rebuilt; without a lender it keeps its own copy until there is one. -/
def State.borrow (s : State) (r : Nat) (mark : Option DetMark) : State :=
  s.setCopy r { s.copyOf r with borrowFrom := s.lender r, rebuilding := some mark }

/-- The regions whose rebuild has lost its source, or waits for one, look for a lender (R175). -/
def State.reborrow (s : State) : State :=
  (List.range 4).foldl
    (fun t r =>
      match (t.copyOf r).rebuilding, (t.copyOf r).borrowFrom with
      | some m, some x => if t.healthyCopy x then t else t.borrow r m
      | some m, none => t.borrow r m
      | none, _ => t) s

end Sys2Proof.Machine
end

