-- ==== Sys2Proof/Machine/Graph.lean ====
section
/-!
DEFINITION. The default parse graph of chapter 04 (Tables 4-4 and 4-5) and the default key profiles (R120), with the
layouts in which PARSE_READ returns parsing objects (Tables 4-10 to 4-14).
-/

namespace Sys2Proof.Machine

/-- The state number that means ACCEPT. -/
def acceptState : Nat := 255

/-! ### The default graph -/

/-- Byte `i` and the 16-bit value at `i` of a header, which reads 0 past its end (R107). -/
def hb (h : List Byte) (i : Nat) : Nat := (byteAt h i).toNat
def hw (h : List Byte) (i : Nat) : Nat := hb h i * 256 + hb h (i + 1)

/-- EtherType selection of the outer and inner link headers: `tag` is the state after a VLAN tag. -/
def selEther (et tag ip4 ip6 : Nat) : Nat :=
  if et = 0x8100 ∨ et = 0x88A8 then tag else if et = 0x0800 then ip4 else if et = 0x86DD then ip6 else acceptState

/-- The next-header map of state 4, with the flags it sets. -/
def selNext6 (nh : Nat) : Nat × Nat :=
  match nh with
  | 6 => (6, 0)
  | 17 => (7, 0)
  | 58 => (8, 0)
  | 0 => (5, 8)
  | 43 => (5, 8)
  | 60 => (5, 8)
  | 44 => (9, 0)
  | _ => (acceptState, 0)

/-- The next state and the STATE_FLAGS of a default state's header as Table 4-4 says them; the entries of `defaultTrans` select so. -/
def defaultNext (st : Nat) (h : List Byte) : Nat × Nat :=
  match st with
  | 0 => (selEther (hw h 12) 1 3 4, 0)
  | 1 => (selEther (hw h 2) 2 3 4, 0)
  | 2 => (if hw h 2 = 0x0800 then 3 else if hw h 2 = 0x86DD then 4 else acceptState, 0)
  | 3 =>
    if hw h 6 % 8192 ≠ 0 then (acceptState, 1)
    else
      (match hb h 9 with
        | 6 => 6
        | 17 => 7
        | 1 => 8
        | _ => acceptState,
       if hw h 6 / 8192 % 2 = 1 then 2 else 0)
  | 4 => selNext6 (hb h 6)
  | 5 => selNext6 (hb h 0)
  | 7 => if hw h 2 = 4789 then (10, 4) else (acceptState, 0)
  | 9 =>
    if hw h 2 / 8 ≠ 0 then (acceptState, 1)
    else
      let n := selNext6 (hb h 0)
      (n.1, n.2 + if hw h 2 % 2 = 1 then 2 else 0)
  | 10 => (11, 0)
  | 11 => (if hw h 12 = 0x8100 then 12 else if hw h 12 = 0x0800 then 13 else if hw h 12 = 0x86DD then 14 else acceptState, 0)
  | 12 => (if hw h 2 = 0x0800 then 13 else if hw h 2 = 0x86DD then 14 else acceptState, 0)
  | 13 =>
    (if hw h 6 % 8192 ≠ 0 then acceptState
      else match hb h 9 with | 6 => 15 | 17 => 16 | _ => acceptState, 0)
  | 14 => (match hb h 6 with | 6 => 15 | 17 => 16 | _ => acceptState, 0)
  | _ => (acceptState, 0)

/-- `n` 16-bit extractions into successive containers. -/
def exWords (cont off n : Nat) : List Extract :=
  (List.range n).map fun i =>
    { srcOff := BitVec.ofNat 6 (off + 2 * i), width := 2, cont := BitVec.ofNat 6 (cont + i), mask := 0xFFFF }

/-- An 8-bit extraction into the high or the low half of a container. -/
def exByte (off cont : Nat) (high : Bool) : Extract :=
  { srcOff := BitVec.ofNat 6 off, width := 1, cont := BitVec.ofNat 6 cont, shift := if high then 8 else 0
    mask := if high then 0xFF00 else 0x00FF }

/-- A 16-bit extraction under a shift and a mask. -/
def exPart (off cont shift : Nat) (mask : BitVec 16) : Extract :=
  { srcOff := BitVec.ofNat 6 off, width := 2, cont := BitVec.ofNat 6 cont, shift := BitVec.ofNat 4 shift, mask := mask }

/-- The extractions of a default state (Table 4-5). -/
def defaultExtracts (st : Nat) : List Extract :=
  match st with
  | 0 => exWords 0 0 6 ++ exWords 6 12 1
  | 1 => exWords 7 0 1 ++ exWords 6 2 1
  | 2 => exWords 8 0 1 ++ exWords 6 2 1
  | 3 => [exByte 1 9 true, exByte 9 9 false, exByte 8 10 true] ++ exWords 11 6 1 ++ exWords 12 12 2 ++ exWords 20 16 2
  | 4 => [exPart 0 9 4 0xFF00, exByte 6 9 false, exByte 7 10 true] ++ exWords 12 8 8 ++ exWords 20 24 8 ++
      [exPart 0 62 0 0x000F] ++ exWords 63 2 1
  | 5 => [exByte 0 9 false]
  | 6 => exWords 28 0 2 ++ [exPart 12 30 0 0x01FF]
  | 7 => exWords 28 0 2
  | 8 => exWords 30 0 1
  | 9 => [exByte 0 9 false]
  | 10 => exWords 31 4 1 ++ [exByte 6 32 true]
  | 11 => exWords 33 0 6 ++ exWords 39 12 1
  | 12 => exWords 40 0 1 ++ exWords 39 2 1
  | 13 => [exByte 1 41 true, exByte 9 41 false, exByte 8 42 true] ++ exWords 43 12 2 ++ exWords 51 16 2
  | 14 => [exPart 0 41 4 0xFF00, exByte 6 41 false, exByte 7 42 true] ++ exWords 43 8 8 ++ exWords 51 24 8
  | 15 => exWords 59 0 2 ++ [exPart 12 61 0 0x01FF]
  | 16 => exWords 59 0 2
  | _ => []

/-- A list as a table numbered from 0. -/
def numbered {α : Type} (l : List α) : Tab α := (List.range l.length).zip l

/-- A default state of fixed length. -/
def fixedState (type len : Nat) : PState :=
  { htype := BitVec.ofNat 8 type, lenFixed := BitVec.ofNat 10 len, minLen := BitVec.ofNat 10 len, defNext := 255 }

/-- A default IPv4 state: IHL x 4, minimum 20, check 1, checksum verified. -/
def ip4State (type : Nat) : PState :=
  { htype := BitVec.ofNat 8 type, lenMode := true, lenMask := 0x0F, lenLshift := 2, minLen := 20, lenCheck := 1
    csum := true, defNext := 255 }

/-- A default TCP state: data offset x 4, minimum 20. -/
def tcpState (type : Nat) : PState :=
  { htype := BitVec.ofNat 8 type, lenMode := true, lenOff := 12, lenMask := 0xF0, lenRshift := 4, lenLshift := 2
    minLen := 20, defNext := 255 }

/-- An entry of the default graph: SEL0 and SEL1 with the bits of each that count. -/
def tran (sel0 mask0 sel1 mask1 next flags : Nat) : PTrans :=
  { value := word (sel0 * 65536 + sel1), mask := word (mask0 * 65536 + mask1), next := BitVec.ofNat 8 next
    setFlags := BitVec.ofNat 8 flags, valid := true }

/-- Entries on a 16-bit value at SEL0. -/
def onSel0 (l : List (Nat × Nat)) : List PTrans := l.map fun e => tran e.1 0xFFFF 0 0 e.2 0

/-- The next headers of state 4 with their states and flags. -/
def next6Map : List (Nat × Nat × Nat) := [(6, 6, 0), (17, 7, 0), (58, 8, 0), (0, 5, 8), (43, 5, 8), (60, 5, 8), (44, 9, 0)]

/-- The transition entries of a default state, in order (Table 4-4). (DESIGN CHOICE: log entry 52.) -/
def defaultTrans (st : Nat) : List PTrans :=
  match st with
  | 0 => onSel0 [(0x8100, 1), (0x88A8, 1), (0x0800, 3), (0x86DD, 4)]
  | 1 => onSel0 [(0x8100, 2), (0x88A8, 2), (0x0800, 3), (0x86DD, 4)]
  | 2 => onSel0 [(0x0800, 3), (0x86DD, 4)]
  | 3 =>
    ([0, 1].flatMap fun mf => [(6, 6), (17, 7), (1, 8)].map fun e => tran (0x2000 * mf) 0x3FFF e.1 0xFF e.2 (2 * mf)) ++
      [tran 0x2000 0x3FFF 0 0 255 2, tran 0 0x3FFF 0 0 255 0, tran 0 0 0 0 255 1]
  | 4 => next6Map.map fun e => tran (e.1 * 256) 0xFF00 0 0 e.2.1 e.2.2
  | 5 => next6Map.map fun e => tran (e.1 * 256) 0xFF00 0 0 e.2.1 e.2.2
  | 7 => [tran 4789 0xFFFF 0 0 10 4]
  | 9 =>
    ([0, 1].flatMap fun m => next6Map.map fun e => tran m 0xFFF9 (e.1 * 256) 0xFF00 e.2.1 (e.2.2 + 2 * m)) ++
      [tran 1 0xFFF9 0 0 255 2, tran 0 0xFFF9 0 0 255 0]
  | 11 => onSel0 [(0x8100, 12), (0x0800, 13), (0x86DD, 14)]
  | 12 => onSel0 [(0x0800, 13), (0x86DD, 14)]
  | 13 => [tran 0 0x1FFF 6 0xFF 15 0, tran 0 0x1FFF 17 0xFF 16 0]
  | 14 => [tran 0x0600 0xFF00 0 0 15 0, tran 0x1100 0xFF00 0 0 16 0]
  | _ => []

/-- The transition memory at reset: the entries of the default states from entry 0 on, state by state; the others are 0. -/
def defaultMemory : List PTrans := (List.range 17).flatMap defaultTrans

/-- The byte offsets of SEL0 and of SEL1, where a default state selects. -/
def defaultSel (st : Nat) : Option Nat × Option Nat :=
  match st with
  | 0 => (some 12, none)
  | 1 => (some 2, none)
  | 2 => (some 2, none)
  | 3 => (some 6, some 8)
  | 4 => (some 6, none)
  | 5 => (some 0, none)
  | 7 => (some 2, none)
  | 9 => (some 2, some 0)
  | 11 => (some 12, none)
  | 12 => (some 2, none)
  | 13 => (some 6, some 8)
  | 14 => (some 6, none)
  | _ => (none, none)

/-- The contents of a state at reset (Table 4-4). What the table leaves open beside the selection is chosen: its place in the transition
memory, MIN_LEN of a fixed length, the split of a shift, the numbers of the extractions. -/
def defaultState (st : Nat) : PState :=
  let d : PState :=
    match st with
    | 0 => fixedState 0x01 14
    | 1 => fixedState 0x02 4
    | 2 => fixedState 0x02 4
    | 3 => ip4State 0x03
    | 4 => { fixedState 0x04 40 with lenCheck := 2, profile := 1, profileEn := true }
    | 5 => { htype := 0x05, lenMode := true, lenOff := 1, lenMask := 0xFF, lenLshift := 3, lenAdd := 8, minLen := 8
             defNext := 255 }
    | 6 => tcpState 0x06
    | 7 => { fixedState 0x07 8 with lenCheck := 3 }
    | 8 => fixedState 0x08 4
    | 9 => fixedState 0x09 8
    | 10 => { fixedState 0x0A 8 with defNext := 11 }
    | 11 => fixedState 0x11 14
    | 12 => fixedState 0x12 4
    | 13 => ip4State 0x13
    | 14 => { fixedState 0x14 40 with lenCheck := 2 }
    | 15 => tcpState 0x16
    | 16 => { fixedState 0x17 8 with lenCheck := 3 }
    | _ => {}
  let sel := defaultSel st
  { d with
      sel0Off := BitVec.ofNat 6 (sel.1.getD 0), sel0En := sel.1.isSome, sel1Off := BitVec.ofNat 6 (sel.2.getD 0)
      sel1En := sel.2.isSome, tCount := BitVec.ofNat 5 (defaultTrans st).length
      tBase := if defaultTrans st = [] then 0 else BitVec.ofNat 11 ((List.range st).flatMap defaultTrans).length
      extracts := numbered (defaultExtracts st) }

/-- A state as it stands: written, or at its reset contents. -/
def State.pstate (s : State) (st : Nat) : PState := (tget? s.parse.states st).getD (defaultState st)

/-- A default state that nothing has written. -/
def State.isDefault (s : State) (st : Nat) : Bool := decide (st ≤ 16) && !(thas s.parse.states st)

/-- A transition entry as it stands: written, or at its reset contents. -/
def State.ptrans (s : State) (i : Nat) : PTrans := (tget? s.parse.trans i).getD (defaultMemory.getD i {})

/-! ### Default key profiles (R120) -/

def profileOne : List Byte :=
  ([3, 4, 5, 6, 7, 9, 10] ++ (List.range 16).map (12 + ·) ++ [28, 29, 30, 62, 63]).map (BitVec.ofNat 8)

def profileRest : List Byte :=
  (List.range 14 ++ [20, 21, 28, 29, 30, 31, 32, 41, 43, 44, 51, 52, 59, 60]).map (BitVec.ofNat 8)

/-- The 28 slot bytes of a region's key profile. -/
def ClassRegion.profile (c : ClassRegion) (i : Nat) : List Byte :=
  (tget? c.profiles i).getD (if i = 1 then profileOne else profileRest)

/-! ### Layouts -/

/-- PARSE_STATE_WRITE words 2 to 54 as a state (Table 4-10); `w` gives the word of that number. -/
def pstateOf (w : Nat → Word) : PState :=
  { htype := BitVec.ofNat 8 (fld (w 2) 0 8), lenMode := bit (w 2) 8, lenFixed := BitVec.ofNat 10 (fld (w 2) 9 10)
    lenOff := BitVec.ofNat 6 (fld (w 2) 19 6), lenWide := bit (w 2) 25
    lenMask := BitVec.ofNat 16 (fld (w 3) 0 16), lenRshift := BitVec.ofNat 4 (fld (w 3) 16 4)
    lenLshift := BitVec.ofNat 2 (fld (w 3) 20 2), lenAdd := BitVec.ofNat 10 (fld (w 3) 22 10)
    minLen := BitVec.ofNat 10 (fld (w 4) 0 10), lenCheck := BitVec.ofNat 2 (fld (w 4) 10 2)
    setFlags := BitVec.ofNat 8 (fld (w 4) 12 8), profile := BitVec.ofNat 4 (fld (w 4) 20 4), profileEn := bit (w 4) 24
    csum := bit (w 4) 25
    sel0Off := BitVec.ofNat 6 (fld (w 5) 0 6), sel0En := bit (w 5) 6, sel1Off := BitVec.ofNat 6 (fld (w 5) 8 6)
    sel1En := bit (w 5) 14, defNext := BitVec.ofNat 8 (fld (w 5) 16 8), tCount := BitVec.ofNat 5 (fld (w 5) 24 5)
    tBase := BitVec.ofNat 11 (fld (w 6) 0 11)
    extracts := (List.range 24).foldl
      (fun t j =>
        tset t j {}
          { srcOff := BitVec.ofNat 6 (fld (w (7 + 2 * j)) 0 6), width := BitVec.ofNat 2 (fld (w (7 + 2 * j)) 6 2)
            cont := BitVec.ofNat 6 (fld (w (7 + 2 * j)) 8 6), shift := BitVec.ofNat 4 (fld (w (7 + 2 * j)) 16 4)
            mask := BitVec.ofNat 16 (fld (w (8 + 2 * j)) 0 16) }) [] }

/-- Words 2 to 4 of a state. -/
def PState.lengthWords (p : PState) : List Word :=
  [pack [(0, p.htype.toNat), (8, b2n p.lenMode), (9, p.lenFixed.toNat), (19, p.lenOff.toNat), (25, b2n p.lenWide)],
   pack [(0, p.lenMask.toNat), (16, p.lenRshift.toNat), (20, p.lenLshift.toNat), (22, p.lenAdd.toNat)],
   pack [(0, p.minLen.toNat), (10, p.lenCheck.toNat), (12, p.setFlags.toNat), (20, p.profile.toNat),
     (24, b2n p.profileEn), (25, b2n p.csum)]]

/-- Words 5 and 6 of a state. -/
def PState.selectWords (p : PState) : List Word :=
  [pack [(0, p.sel0Off.toNat), (6, b2n p.sel0En), (8, p.sel1Off.toNat), (14, b2n p.sel1En), (16, p.defNext.toNat),
     (24, p.tCount.toNat)],
   word p.tBase.toNat]

/-- Words 7 to 54 of a state. -/
def PState.extractWords (p : PState) : List Word :=
  (List.range 24).flatMap fun j =>
    let e := tget p.extracts j {}
    [pack [(0, e.srcOff.toNat), (6, e.width.toNat), (8, e.cont.toNat), (16, e.shift.toNat)], word e.mask.toNat]

/-- PATTERN_WRITE words 2 to 10 as a pattern (Table 4-12), and back. -/
def patternOf (ws : List Word) : Pattern :=
  { len := BitVec.ofNat 5 (fld (wd ws 2) 0 5), floating := bit (wd ws 2) 5
    startMin := BitVec.ofNat 8 (fld (wd ws 2) 8 8), startMax := BitVec.ofNat 8 (fld (wd ws 2) 16 8)
    value := BitVec.ofNat 128 (wd64 ws 3 + wd64 ws 5 * 2 ^ 64), mask := BitVec.ofNat 128 (wd64 ws 7 + wd64 ws 9 * 2 ^ 64) }

def Pattern.words (p : Pattern) : List Word :=
  pack [(0, p.len.toNat), (5, b2n p.floating), (8, p.startMin.toNat), (16, p.startMax.toNat)] ::
    (wordsOf p.value.toNat 4 ++ wordsOf p.mask.toNat 4)

/-- The four slot bytes of each word of a key profile (R134), and back. -/
def profileOf (ws : List Word) : List Byte := wordsToBytes ((List.range 7).map fun i => wd ws (2 + i))

/-- The number in `n` words from word `i`. -/
def numWords (ws : List Word) (i n : Nat) : Nat :=
  ((List.range n).map fun j => (wd ws (i + j)).toNat * 2 ^ (32 * j)).foldl (· + ·) 0

end Sys2Proof.Machine
end

