-- ==== Sys2Proof/Machine/Parser.lean ====
section
/-!
DEFINITION. The parse of one frame (R107 to R117), the classification key (R119), and the ternary lookup (R121).
-/

namespace Sys2Proof.Machine

/-- How a parse ends. -/
inductive ParseEnd where
  | accept | limit | mismatch
  deriving DecidableEq, Repr

/-- A parse in progress: the next state, where its header starts, and the current extent (none while neither the
frame's end nor a claimed end is known). -/
structure ParseRun where
  hv     : HdrVec
  st     : Nat
  off    : Nat := 0
  extent : Option Nat
  deriving DecidableEq, Repr

/-- The frame as the parser sees it: its bytes without the FCS, and E0 where the frame has ended. -/
structure Frame where
  bytes : List Byte
  e0    : Option Nat
  deriving DecidableEq, Repr

def ParseRun.passes (r : ParseRun) (i : Nat) : Bool := match r.extent with | some x => decide (x < i) | none => false

/-- The length of the header that state `p` describes, or how the parse ends instead (R107 steps 2 to 4).
(DEDUCED: log entry 49.) -/
def PState.length (p : PState) (f : Frame) (o : Nat) : Except ParseEnd Nat :=
  if p.lenMode = false then .ok p.lenFixed.toNat
  else
    let i := o + p.lenOff.toNat
    let last := if p.lenWide then i + 1 else i
    if 512 ≤ last then .error .limit
    else if (match f.e0 with | some e => decide (e ≤ last) | none => false) then .error .mismatch
    else
      let v := if p.lenWide then netAt f.bytes i 2 else (byteAt f.bytes i).toNat
      .ok ((v &&& p.lenMask.toNat) >>> p.lenRshift.toNat * 2 ^ p.lenLshift.toNat + p.lenAdd.toNat)

/-- The claimed end of a header, or none where its length check fails (Table 4-2); `some none` without a check. -/
def PState.claim (p : PState) (h : List Byte) (o n : Nat) : Option (Option Nat) :=
  match p.lenCheck.toNat with
  | 0 => some none
  | 1 => if n < 20 ∨ hw h 2 < n then none else some (some (o + hw h 2))
  | 2 => if n ≠ 40 then none else some (some (o + 40 + hw h 4))
  | _ => if hw h 4 < 8 then none else some (some (o + hw h 4))

/-- One extraction (R108). -/
def Extract.apply (e : Extract) (h : List Byte) (cs : Tab (BitVec 16)) : Tab (BitVec 16) :=
  if e.width = 0 then cs
  else
    let v : BitVec 16 := BitVec.ofNat 16 (if e.width = 1 then hb h e.srcOff.toNat else hw h e.srcOff.toNat)
    let old := tget cs e.cont.toNat 0
    tset cs e.cont.toNat 0 ((old &&& ~~~ e.mask) ||| ((v <<< e.shift.toNat) &&& e.mask))

/-- The ones' complement sum of the 16-bit words of a byte list. -/
def onesSum : List Byte → Nat
  | [] => 0
  | [a] => a.toNat * 256
  | a :: b :: r =>
    let t := a.toNat * 256 + b.toNat + onesSum r
    t % 65536 + t / 65536

/-- The header's checksum is right (R113). -/
def ipSumOk (h : List Byte) : Bool := decide (onesSum h = 0xFFFF)

/-- The next state and the flags to be set (R107 step 8). The IPv6 fragment state of the default graph selects on one value more than 16
entries hold: there a non-first fragment matches none and sets flag 0. -/
def State.nextState (s : State) (st : Nat) (p : PState) (h : List Byte) : Nat × BitVec 8 :=
  let sel (en : Bool) (o : BitVec 6) : Nat := if en then hw h o.toNat else 0
  let key : Word := word (sel p.sel0En p.sel0Off * 65536 + sel p.sel1En p.sel1Off)
  match ((List.range p.tCount.toNat).map fun i => s.ptrans (p.tBase.toNat + i)).find? fun t =>
      t.valid && decide (key &&& t.mask = t.value) with
  | some t => (t.next.toNat, t.setFlags)
  | none => (p.defNext.toNat, if st = 9 ∧ s.isDefault 9 = true then 1 else 0)

/-- One parse state (R107): the run after it, or the run as it ends and how. (DEDUCED: log entry 50.) -/
def State.parseOne (s : State) (f : Frame) (r : ParseRun) : ParseRun × Option ParseEnd :=
  let p := s.pstate r.st
  let o := r.off
  if 16 ≤ r.hv.slots.length then (r, some .limit)
  else if p.lenMode = false ∧ p.lenFixed = 0 then ({ r with hv := { r.hv with emptyState := true } }, some .accept)
  else
    match p.length f o with
    | .error e => (r, some e)
    | .ok n =>
      -- an end that the frame may not reach is a claim to be tested at the frame's end (R114)
      let beyond := r.extent.isNone && decide (f.bytes.length < o + n)
      let r : ParseRun :=
        if beyond then { r with hv := { r.hv with lengthPending := true, headEnd := some (o + n) } } else r
      if n < p.minLen.toNat ∨ r.passes (o + n) = true then (r, some .mismatch)
      else if 512 < o + n then (r, some .limit)
      else
        let h := (f.bytes.drop o).take n
        let r : ParseRun :=
          { r with hv := { r.hv with
              slots := r.hv.slots ++ [{ htype := p.htype, offset := o, length := n }] } }
        match p.claim h o n with
        | none => (r, some .mismatch)
        | some c =>
          if (match c with | some x => r.passes x | none => false) then (r, some .mismatch)
          else
            let nx := s.nextState r.st p h
            let v := r.hv
            let v : HdrVec :=
              match c with
              | some x =>
                { v with
                    outerClaim := some (v.outerClaim.getD x), innerClaim := some x
                    lengthPending := v.lengthPending || (f.e0.isNone && decide (f.bytes.length < x)) }
              | none => v
            let v : HdrVec :=
              { v with
                  containers := p.extracts.foldl (fun cs e => e.2.apply h cs) v.containers
                  stateFlags := v.stateFlags ||| p.setFlags ||| nx.2
                  csumBad := v.csumBad || (p.csum && !(ipSumOk h))
                  profile := if p.profileEn then p.profile else v.profile
                  payloadOffset := o + n }
            let r' : ParseRun := { hv := v, st := nx.1, off := o + n, extent := c.orElse fun _ => r.extent }
            (r', if nx.1 = acceptState then some .accept else none)

/-- At most 17 states are entered: 16 headers, and the one that meets the header limit. (DEDUCED: log entry 66.) -/
def State.parseLoop (s : State) (f : Frame) : Nat → ParseRun → ParseRun × ParseEnd
  | 0, r => (r, .limit)
  | k + 1, r =>
    match s.parseOne f r with
    | (r', some e) => (r', e)
    | (r', none) => s.parseLoop f k r'

/-- The trailing bytes that are certain: of a frame that has ended all of them (R112), of another one or none. -/
def HdrVec.trail (v : HdrVec) (e0 : Nat) : Nat := match v.innerClaim with | some c => e0 - c | none => 0

/-- A pattern matches at a window offset. -/
def Pattern.hits (p : Pattern) (w : List Byte) (s : Nat) : Bool :=
  decide (s + p.len.toNat ≤ w.length) &&
    decide (BitVec.ofNat 128 (natAt w s p.len.toNat) &&& p.mask = p.value)

/-- A pattern matches the scan window (R117). -/
def Pattern.matches_ (p : Pattern) (w : List Byte) : Bool :=
  if p.len = 0 then false
  else if p.floating then
    (List.range (p.startMax.toNat + 1)).any fun s => decide (p.startMin.toNat ≤ s) && p.hits w s
  else p.hits w p.startMin.toNat

/-- The bits of a list of Booleans, the first in bit 0. -/
def bitsOf (l : List Bool) : Nat := l.foldr (fun b a => b2n b + 2 * a) 0

/-- The parse of a frame at an ingress port: the header vector, and whether the lengths contradict (R104 to R117). -/
def State.parseFrame (s : State) (p : Nat) (f : Frame) : HdrVec × Bool :=
  let v := s.port p
  let r := s.parseLoop f 17 { hv := { profile := v.keyProfile }, st := v.startState.toNat, extent := f.e0 }
  let hv := r.1.hv
  match r.2 with
  | .mismatch => (hv, true)
  | .limit => ({ hv with parseLimit := true }, false)
  | .accept =>
    let stop := (hv.innerClaim.orElse fun _ => f.e0).getD f.bytes.length
    let w := min 256 (stop - hv.payloadOffset)
    let win := (f.bytes.drop hv.payloadOffset).take w
    let ps := (s.classRegion (laneRegion p)).patterns
    ({ hv with
        payloadValid := true, payloadLen := w
        payloadMatch := BitVec.ofNat 32 (bitsOf ((List.range 32).map fun i => (tget ps i {}).matches_ win)) }, false)

/-- The frame's length as TRAILING and TRAIL_LEN see it. -/
def Frame.stop (f : Frame) : Nat := f.e0.getD f.bytes.length

/-- The flags TRAILING and TRAIL_LEN for a frame that ends at `e0`. (DEDUCED: log entry 51.) -/
def HdrVec.withTrail (v : HdrVec) (e0 : Nat) : HdrVec :=
  { v with trailing := decide (0 < v.trail e0), trailLen := v.trail e0 }

/-- The parser statistics of a parse that ended well or at a limit. -/
def State.parseStats (s : State) (p : Nat) (hv : HdrVec) : State :=
  let s := if hv.parseLimit then s.parserStat p 0 else s
  let s := if hv.csumBad then s.parserStat p 4 else s
  let s := if hv.emptyState then s.parserStat p 5 else s
  if hv.lengthPending then s.parserStat p 6 else s

/-- The parser statistics of a parse that ended with LENGTH_MISMATCH; a wrong checksum of a header parsed before it counts
all the same (R111, R113). -/
def State.mismatchStats (s : State) (p : Nat) (hv : HdrVec) : State :=
  (if hv.csumBad then s.parserStat p 4 else s).parserStat p 1

/-- TRAILING_FRAMES and TRAILING_BYTES of a frame that has ended. -/
def State.trailStats (s : State) (p trail : Nat) : State :=
  if 0 < trail then (s.parserStat p 2).parserStat p 3 trail else s

/-! ### The key and the rules -/

def HdrVec.c (v : HdrVec) (i : Nat) : Nat := (tget v.containers i 0).toNat

/-- PARSE_FLAGS (Table 4-3). -/
def HdrVec.flags (v : HdrVec) : Nat :=
  bitsOf [v.parseLimit, v.trailing, v.payloadValid, v.csumBad, v.lengthPending, v.emptyState] + 256 * v.stateFlags.toNat

/-- RANGE_VECTOR (R118). -/
def ClassRegion.rangeVector (c : ClassRegion) (v : HdrVec) : Nat :=
  bitsOf ((List.range 64).map fun i =>
    let g := tget c.ranges i {}
    g.enable && decide (g.low.toNat ≤ v.c g.source.toNat) && decide (v.c g.source.toNat ≤ g.high.toNat))

/-- What the two lookups give to the key: class IDs, none on a miss. -/
structure LookupClasses where
  em  : Option Nat
  lpm : Option Nat
  deriving DecidableEq, Repr

/-- The classification key (Table 4-6). -/
def ClassRegion.key (c : ClassRegion) (p : Nat) (v : HdrVec) (l : LookupClasses) : BitVec 640 :=
  let slots := (c.profile v.profile.toNat).take 28
  let low := p + v.profile.toNat * 2 ^ 10 + v.flags * 2 ^ 16 + v.payloadMatch.toNat * 2 ^ 32 +
    c.rangeVector v * 2 ^ 64 + l.em.getD 0 * 2 ^ 128 + l.lpm.getD 0 * 2 ^ 144 + v.slots.length * 2 ^ 160 +
    b2n l.em.isSome * 2 ^ 165 + b2n l.lpm.isSome * 2 ^ 166
  BitVec.ofNat 640
    (low + (slots.foldr (fun b a => (if b.getLsbD 7 then 0 else v.c (b.toNat % 64)) + 65536 * a) 0) * 2 ^ 192)

/-- The winning rule: the lowest index whose masked key equals its value (R121). -/
def ClassRegion.winner (c : ClassRegion) (key : BitVec 640) : Option (Nat × Rule) :=
  c.rules.find? fun e => decide (key &&& e.2.mask = e.2.value)

end Sys2Proof.Machine
end

