-- ==== Sys2Proof/Machine/StateWords.lean ====
section
/-!
DEFINITION. The words of a region's state under ECC (R385, R400): their recovery in place, and the patterns that wait in them.
-/

namespace Sys2Proof.Machine

/-- A byte count in the units of buckets and credits. -/
def byteUnit : Int := 2 ^ 32

def Shaper.full (x : Shaper) : Shaper := { x with credit := (x.burst.toNat : Int) * byteUnit }

/-- A counter with both copies lost: frozen, with its sticky bit set where it has one. -/
def C48.lose (c : C48) : C48 := { c with frozen := true, sticky := true }

/-- A counter of which both copies are lost counts no more, and reads of it answer UNCORRECTED (R385). -/
def State.freeze (s : State) (r : Nat) (c : CounterName) : State :=
  match c with
  | .perf i =>
    let v := tget s.tally.perf i {}
    { s with tally := { s.tally with perf := tins s.tally.perf i { v with count := v.count.lose } } }
  | .mac p i => s.modPort p fun v => { v with macFrozen := i :: v.macFrozen }
  | .parser p i => s.modPort p fun v => { v with parserFrozen := i :: v.parserFrozen }
  | .meter i k =>
    let m := s.meter r i
    s.setMeter r i
      (if k = 0 then { m with green := m.green.lose } else if k = 1 then { m with yellow := m.yellow.lose }
      else { m with red := m.red.lose })
  | .hits i =>
    match tget? (s.classRegion r).rules i with
    | some v => s.setClassRegion r { s.classRegion r with rules := tins (s.classRegion r).rules i { v with hits := v.hits.lose } }
    | none => s
  | .histogram q b => s.modQueue q fun v => { v with histFrozen := b :: v.histFrozen }
  | .tally p => s.modPort p fun v => { v with cumFrozen := true, bytesWrapped := true }

/-- The word is rewritten in place. -/
def State.rewrite (s : State) (r : Nat) (w : RegionWord) : State :=
  match w with
  | .meter i =>
    let m := s.meter r i
    s.setMeter r i { m with tokC := (m.cbs.toNat : Int) * byteUnit, tokE := (m.ebs.toNat : Int) * byteUnit }
  | .queueShaper q => s.modQueue q fun v => { v with shaper := v.shaper.full }
  | .portShaper p => s.modPort p fun v => { v with shaper := v.shaper.full }
  | .headTag q => s.modQueue q fun v => { v with headF := v.headF.map fun _ => (s.port (queuePort q)).vOf q }
  | .virtualTime p express => s.modPort p fun v => if express then { v with vExpress := 0 } else { v with vOrdinary := 0 }
  | .allocatorCount => s
  | .linkCopy _ => s
  | .counterCopy => s
  | .counterBoth c => s.freeze r c

/-- An uncorrectable state word of a region, but for a link copy: detected at its address and recovered in place (R385). -/
def State.stateUe (s : State) (region : Nat) (word : RegionWord) (addr : Nat) : State :=
  match word with
  | .allocatorCount =>
    let m := s.mark dRegionState region addr
    (s.detect dRegionState region addr true).modRegion region fun g => { g with recount := g.recount ++ [m] }
  | .counterBoth c => (s.freeze region c).detectLog dRegionState region addr
  | w => (s.rewrite region w).detectWithin dRegionState region addr 0 20000 0 true

/-- State words of a region are read: the pattern that waits is met in one of them; which one is open (R400). -/
def State.stateMeets (s : State) (region : Nat) (words : List RegionWord) : State :=
  match s.unitMeets dRegionState region with
  | (t, none) => t
  | (t, some a) =>
    let x := t.fresh
    x.2.stateUe region (words.getD (x.1 % words.length) .counterCopy) a

end Sys2Proof.Machine
end

