-- ==== Sys2Proof/Machine/Links.lean ====
section
/-!
DEFINITION. A port's link as shared operations: rates and speeds (Tables 2-1, 3-1), entering and leaving UP (R49, R97),
and the restart of bring-up (R63, R69).
-/

namespace Sys2Proof.Machine

/-- A width and lane rate that Table 3-1 has. -/
def comboOk (width code : Nat) : Bool :=
  match width with
  | 1 => decide (code ≤ 4)
  | 2 => decide (2 ≤ code) && decide (code ≤ 4)
  | 4 => decide (code ≤ 4)
  | 8 => decide (2 ≤ code) && decide (code ≤ 4)
  | _ => false

/-- The lane-rate codes, highest first. -/
def codesDown : List Nat := [4, 3, 2, 1, 0]

/-- Changes every lane of a port. -/
def State.modLanes (s : State) (p : Nat) (f : Lane → Lane) : State :=
  (s.portLanes p).foldl (fun t l => t.modLane l f) s

/-- A frame in transmission when its port leaves UP is dropped with PORT_DOWN; its bytes count nowhere (R97).
(DEDUCED: log entry 42.) -/
def State.cutTx (s : State) (p : Nat) : State :=
  -- what waited behind it is not sent
  let s := (s.port p).macQueue.foldl
    (fun t f => match f with | .pause n _ => t.modPort p fun v => v.xoffAt n (some s.time.runPs) | _ => t)
    (s.modPort p fun v => { v with macQueue := [] })
  match (s.port p).tx with
  | none => s
  | some x =>
    let q := 16 * p + x.qidx
    (s.modPort p fun v => { v with tx := none }).dropQueued q x.pkt rsPortDown

/-- A lane outside UP: no lock, no figure of merit, order unknown (R51, R56, R58). LOGICAL_LANE, and RX_POL_INV with RX_POL_AUTO, keep
what was last read and detected, over PORT_DELETE too. (DESIGN CHOICE: log entry 184.) -/
def Lane.down (l : Lane) : Lane :=
  { l with lock := false, fom := 0x8000, order := 3, lowWindows := 0, okWindows := 0 }

/-- A lane whose receiver is off (Table 2-2). -/
def Lane.off (l : Lane) : Lane := { l.down with signal := false }

/-- Takes a port to a state outside UP; leaving UP keeps its speed and ends its transmission (R46, R49, R97). -/
def State.takeDown (s : State) (p : Nat) (st : LaneState) (cause : Option Nat) : State :=
  match s.port? p with
  | none => s
  | some v =>
    let s := if v.state = .up then s.cutTx p else s
    let s := s.modPort p fun w =>
      { w with
          lastSpeed := if v.state = .up then some (v.width.toNat * rateGbps v.rate.toNat) else w.lastSpeed
          state := st
          rate := if st = .disabled then 0 else w.rate
          lastCause := match cause with | some c => BitVec.ofNat 8 c | none => w.lastCause }
    let s := s.modLanes p fun l => if st = .disabled then l.off else l.down
    if v.state = .up then s.protectAll else s

/-- The LAST_CAUSE codes of Table 2-6. -/
def causeNegTimeout : Nat := 1
def causeNoAbility : Nat := 2
def causeTrainTimeout : Nat := 3
def causeAlignTimeout : Nat := 4
def causeSkew : Nat := 5
def causeLockLost : Nat := 6
def causeSignalLost : Nat := 7
def causeCommanded : Nat := 8

/-- A commanded restart of bring-up; none for a port in DISABLED or TEST (R63, R69). -/
def State.restartPort (s : State) (p : Nat) : State :=
  match s.port? p with
  | none => s
  | some v =>
    if v.state = .disabled ∨ v.state = .test then s else s.takeDown p .waitSignal (some causeCommanded)

/-- Some lane of the port runs PRBS. -/
def State.prbsOn (s : State) (p : Nat) : Bool :=
  (s.portLanes p).any fun l => decide ((s.lane l).genPattern ≠ 0) || decide ((s.lane l).chkPattern ≠ 0)

/-- The state of a lane: its port's, or for a lane of no port TEST while it runs PRBS (R45, R46). -/
def State.laneState (s : State) (l : Nat) : LaneState :=
  match s.lanePort? l with
  | some p => (s.port p).state
  | none =>
    if (s.lane l).genPattern ≠ 0 ∨ (s.lane l).chkPattern ≠ 0 then .test else .disabled

def LaneState.code : LaneState → Nat
  | .disabled => 0 | .waitSignal => 1 | .negotiate => 2 | .train => 3 | .align => 4 | .up => 5 | .test => 6

end Sys2Proof.Machine
end

