-- ==== Sys2Proof/Machine/Ports.lean ====
section
/-!
DEFINITION. Chapter 03: the port commands, the pause timers with their watchdog, and the XOFF refresh.
-/

namespace Sys2Proof.Machine

/-- The port that word 0 names. -/
def portOf (c : Cmd) : Nat := fld (wd c.words 0) 0 10

/-- A command on a configured port; NOT_FOUND otherwise (R98). (DESIGN CHOICE: log entry 159.) -/
def onPort (c : Cmd) (s : State) (f : Nat → Port → State × Option Ans) : State × Option Ans :=
  match s.port? (portOf c) with
  | some v => f (portOf c) v
  | none => fail s stNotFound

/-! ### Creating, changing and deleting a port -/

/-- Another configured port has one of these lanes. -/
def State.overlaps (s : State) (p w : Nat) : Bool :=
  s.ports.any fun e => decide (e.1 ≠ p) && decide (e.1 < p + w) && decide (p < e.1 + e.2.width.toNat)

/-- The port fields of Table 3-7 out of words 1 and 2. -/
def portFields (w1 w2 : Word) (v : Port) : Port :=
  let base := BitVec.ofNat 7 (fld w1 8 7)
  let same := decide (base = v.ctBase)
  { v with
      width := BitVec.ofNat 4 (fld w1 0 4), adminUp := bit w1 4, ctEnable := bit w1 5
      fcMode := BitVec.ofNat 2 (fld w1 6 2), ctBase := base
      ctThresh := if same then v.ctThresh else base
      cleanCount := if same then v.cleanCount else 0
      maxFrame := BitVec.ofNat 14 (fld w2 0 14) }

/-- A change of FC_MODE clears every pause timer and watchdog; a recovery ends without its event (R99).
(DEDUCED, DESIGN CHOICE: log entries 45, 206.) -/
def State.fcModeChanged (s : State) (p : Nat) : State :=
  (s.modPort p fun v => { v with pause := [] }).xoffAll p

/-- The state of a port by its administrative state: its lanes go to WAIT_SIGNAL when it is enabled, and it is in TEST while a lane of
it runs PRBS, whatever ADMIN_UP says; without such a lane an enabled port leaves TEST (R46, R60, R99).
(DESIGN CHOICE: log entry 169.) -/
def State.adminState (s : State) (p : Nat) (wasUp : Bool) : State :=
  let v := s.port p
  if s.prbsOn p then s.modPort p fun w => { w with state := .test }
  else if v.adminUp then
    if v.state = .disabled ∨ v.state = .test then
      (s.modLanes p Lane.off).modPort p fun w => { w with state := .waitSignal }
    else s
  else if wasUp then s.takeDown p .disabled none
  else (s.modLanes p Lane.off).modPort p fun w => { w with state := .disabled }

/-- The lanes of a port beyond its first `w` leave it for DISABLED, with receiver off and no measurement, but for those that go on
running PRBS (R45, R56). -/
def State.dropLanes (s : State) (p w : Nat) : State :=
  ((s.portLanes p).filter fun l => decide (p + w ≤ l)).foldl
    (fun t l => t.modLane l fun x => if x.genPattern = 0 ∧ x.chkPattern = 0 then x.off else x) s

/-- The account that a port number has from its earlier life (R300, R315). -/
def Port.account (v old : Port) : Port :=
  { v with
      received := old.received, receivedBytes := old.receivedBytes, openStart := old.openStart, cum := old.cum
      bytesWrapped := old.bytesWrapped, absentPeriods := old.absentPeriods, imbalanced := old.imbalanced
      lastChecked := old.lastChecked, cumFrozen := old.cumFrozen, ing := old.ing }

/-- PORT_CONFIG (R16, R70, R72, R96, R97, R99, R189, R412). -/
def portConfigAct (c : Cmd) (s : State) : State × Option Ans :=
  let p := portOf c
  let w1 := wd c.words 1
  let w2 := wd c.words 2
  let w := fld w1 0 4
  let maxF := fld w2 0 14
  let forced := (s.lane p).anEnable = false ∧ comboOk w (s.lane p).forcedRate.toNat = false
  if (w ≠ 1 ∧ w ≠ 2 ∧ w ≠ 4 ∧ w ≠ 8) ∨ fld w1 6 2 = 3 ∨ fld w1 8 7 = 0 ∨ 64 < fld w1 8 7 ∨ maxF < 64 then
    fail s stBadParam
  else if p % w ≠ 0 ∨ forced then fail s stBadParam
  else if s.overlaps p w then fail s stExists
  else
    match s.port? p with
    | none =>
      if s.sharedSize (laneRegion p) < 104 then fail s stBusy
      else
        let v := portFields w1 w2 {}
        let v := { v with ctThresh := v.ctBase }
        let v := match tget? s.tally.gone p with | some o => v.account o | none => v
        let s := { s with tally := { s.tally with gone := tdel s.tally.gone p } }
        -- what the number's packets still hold counts for the new port at once (R199)
        done (((s.setPort p v).adminState p false).xoffAll p)
    | some old =>
      if old.adminUp ∧ old.width.toNat ≠ w then fail s stBusy
      else if old.riwenEn ∧ maxF < 4134 then fail s stBusy
      else
        let new := portFields w1 w2 old
        let t := (s.dropLanes p w).setPort p new
        let t := if new.fcMode ≠ old.fcMode then t.fcModeChanged p else t
        done (t.adminState p old.adminUp)

def execPortConfig (c : Cmd) (s : State) : Res := .next (runCmd 0x0210 c s (portConfigAct c))

/-- The 16 queue numbers of a port. -/
def portQueues (p : Nat) : List Nat := (List.range 16).map (16 * p + ·)

/-- No queue of the port holds a packet, and none is in transmission. -/
def State.portEmpty (s : State) (p : Nat) : Bool :=
  (s.port p).tx.isNone &&
    (portQueues p).all fun q => (s.queue q).granary.isEmpty && (s.queue q).glacier.isEmpty

/-- Bins of one queue number in two lives within a period together (R308). -/
def addBins (a b : Tab (BitVec 48)) : Tab (BitVec 48) := b.foldl (fun t e => tins t e.1 (satAdd 48 (tget t e.1 0) e.2.toNat)) a

/-- PORT_DELETE (R72, R189, R300): the lanes go to DISABLED, but for those that go on running PRBS, and the reserves return to the
shared pool. (DESIGN CHOICE: log entries 186, 205.) -/
def portDeleteAct (c : Cmd) (s : State) : State × Option Ans :=
  onPort c s fun p v =>
    if v.adminUp ∨ s.portEmpty p = false then fail s stBusy
    else
      let t := s.dropLanes p 0
      let b := laneBlock p
      let stops := !thas t.pwr.keepOn b && !(tkeys t.ports).any fun x => decide (x ≠ p) && decide (laneBlock x = b)
      done { t with
        ports := tdel t.ports p
        pwr := if stops then { t.pwr with blocksOn := tdel t.pwr.blocksOn b } else t.pwr
        queues := (portQueues p).foldl tdel t.queues
        tally := { t.tally with
          histGone := (portQueues p).foldl (fun h q => if (t.queue q).hist.isEmpty then h else tins h q (addBins (tget h q []) (t.queue q).hist)) t.tally.histGone
          gone := tins t.tally.gone p v, deleted := tins t.tally.deleted p () } }

def execPortDelete (c : Cmd) (s : State) : Res := .next (runCmd 0x0211 c s (portDeleteAct c))

/-! ### Reads -/

/-- Bit n of the result is set where `f n` holds, for n below 8. -/
def bits8 (f : Nat → Bool) : Nat := ((List.range 8).map fun n => b2n (f n) * 2 ^ n).foldl (· + ·) 0

/-- The priority is paused: its timer is not 0 (R83). -/
def Port.paused (v : Port) (t : Time) (n : Nat) : Bool :=
  match (tget v.pause n {}).until_ with
  | some u => decide (t.runPs < u)
  | none => false

/-- PORT_STATUS (R101). -/
def portStatusAct (c : Cmd) (s : State) : State × Option Ans :=
  onPort c s fun _ v =>
    done s
      [pack [(0, v.state.code), (4, v.rate.toNat), (7, v.width.toNat), (11, v.ctThresh.toNat)],
       word v.cleanCount.toNat,
       pack [(0, bits8 (v.paused s.time)), (8, bits8 fun n => (tget v.pause n {}).recovery.isSome),
             (16, bits8 fun n => (tget v.pause n {}).xoff)],
       0]

def execPortStatus (c : Cmd) (s : State) : Res := .next (runCmd 0x0212 c s (portStatusAct c))

/-- MAC_STATS_READ (R81, R102). -/
def macStatsReadAct (c : Cmd) (pcsErr : Nat) (s : State) : State × Option Ans :=
  onPort c s fun p v =>
    let w := wd c.words 1
    let first := fld w 0 7
    let count := fld w 8 7
    let run := (List.range count).map (first + ·)
    if count = 0 ∨ 79 < first + count then fail s stBadParam
    else if run.any v.macFrozen.contains then fail s stUncorrected
    else
      let s := s.mac p 33 pcsErr
      let m := (s.port p).mac
      let ws := run.flatMap fun i => wordsOf (tget m i 0).toNat 2
      done (if bit w 31 then s.modPort p fun v => { v with mac := run.foldl tdel m } else s) ws

def execMacStatsRead (c : StatsCmd) (s : State) : Res := .next (runCmd 0x0213 c.cmd s (macStatsReadAct c.cmd c.pcsErr))

/-! ### Flow control -/

/-- A watchdog recovery ends: unpaused, with PAUSE_WD_ENDED, and the watchdog from 0 (R88). -/
def State.endRecovery (s : State) (p n : Nat) : State :=
  match s.port? p with
  | none => s
  | some v =>
    let u := tget v.pause n {}
    if u.recovery.isNone then s
    else
      (s.setPort p { v with pause := tins v.pause n { u with recovery := none, until_ := none } }).raisePort p 0x0212
        [word p, word n]

/-- A recovery that began at `r` has lasted WD_RECOVERY. -/
def Port.recoveryOver (v : Port) (t : Time) (r : Nat) : Bool := decide (v.wdRecovery.toNat * 1000000000 ≤ t.runPs - r)

/-- Recoveries that have lasted WD_RECOVERY end at once (R89). -/
def State.endRecoveries (s : State) (p : Nat) : State :=
  (List.range 8).foldl
    (fun t n =>
      match (tget (t.port p).pause n {}).recovery with
      | some r => if (t.port p).recoveryOver t.time r then t.endRecovery p n else t
      | none => t) s

/-- Continuous pause has reached WD_TIME. -/
def Port.wdDue (v : Port) (t : Time) (n : Nat) : Bool :=
  v.paused t n && decide (v.wdTime.toNat * 1000000000 ≤ t.runPs - (tget v.pause n {}).since)

/-- The watchdog of a priority fires: the pause ends, recovery starts, counted and reported (R87). -/
def State.fireWatchdog (s : State) (p n : Nat) : State :=
  let t := s.modPort p fun v =>
    { v with pause := tins v.pause n { tget v.pause n {} with until_ := none, recovery := some s.time.runPs } }
  (t.mac p (71 + n)).raisePort p 0x0211 [word p, word n]

/-- The watchdogs that a changed WD_TIME finds due fire at once (R89). -/
def State.fireDue (s : State) (p : Nat) : State :=
  (List.range 8).foldl (fun t n => if (t.port p).wdDue t.time n then t.fireWatchdog p n else t) s

/-- PORT_FC_CONFIG (R86, R89, R100). -/
def portFcConfigAct (c : Cmd) (s : State) : State × Option Ans :=
  onPort c s fun p v =>
    let w := wd c.words 1
    let time := fld w 0 14
    let rec_ := fld w 14 10
    let quanta := fld (wd c.words 4) 0 16
    let refresh := fld (wd c.words 4) 16 16
    if time = 0 ∨ 10000 < time ∨ rec_ = 0 ∨ 1000 < rec_ ∨ quanta ≤ refresh then fail s stBadParam
    else
      let v' : Port :=
        { v with
            wdTime := BitVec.ofNat 14 time, wdRecovery := BitVec.ofNat 10 rec_, stormDrop := bit w 24
            prioMap := BitVec.ofNat 48 (fld (wd c.words 2) 0 30 + fld (wd c.words 3) 0 18 * 2 ^ 30)
            txQuanta := BitVec.ofNat 16 quanta, txRefresh := BitVec.ofNat 16 refresh
            pauseSa := BitVec.ofNat 48 ((wd c.words 5).toNat + fld (wd c.words 6) 0 16 * 2 ^ 32) }
      done ((((s.setPort p v').endRecoveries p).fireDue p).xoffAll p)

def execPortFcConfig (c : Cmd) (s : State) : Res := .next (runCmd 0x0214 c s (portFcConfigAct c))

/-- PORT_TS_CAL (R91, R103). -/
def portTsCalAct (c : Cmd) (s : State) : State × Option Ans :=
  onPort c s fun p v =>
    let rx := signed 32 (wd c.words 1).toNat
    let tx := signed 32 (wd c.words 2).toNat
    let reply (u : Port) : List Word :=
      [u.rxAdj, u.txAdj] ++
        ((List.range 8).map fun n => if n < u.width.toNat then tget u.laneDelay n 0 else 0) ++
        [word u.delayValid.toNat]
    if bit (wd c.words 0) 31 then
      if wd c.words 1 ≠ 0 ∨ wd c.words 2 ≠ 0 then fail s stBadParam else done s (reply v)
    else if rx < -100000 ∨ 100000 < rx ∨ tx < -100000 ∨ 100000 < tx then fail s stBadParam
    else
      let u := { v with rxAdj := wd c.words 1, txAdj := wd c.words 2 }
      done (s.setPort p u) (reply u)

def execPortTsCal (c : Cmd) (s : State) : Res := .next (runCmd 0x0215 c s (portTsCalAct c))

/-! ### Pause timers and the watchdog -/

/-- An event of a pause state of a configured port. -/
def onPause (p n : Nat) (s : State) (f : Port → Pause → State) : Res :=
  if p < 1024 ∧ n < 8 then
    match s.port? p with
    | some v => .next (f v (tget v.pause n {}))
    | none => .next s
  else .fault .noSuchObject

/-- A pause timer reaches 0 (R83). -/
def execPauseTimerExpiry (port prio : Nat) (s : State) : Res :=
  onPause port prio s fun v u =>
    if u.until_.isSome ∧ v.paused s.time prio = false then
      s.setPort port { v with pause := tins v.pause prio { u with until_ := none } }
    else s

/-- Continuous pause reaches WD_TIME (R87). -/
def execPauseWdFired (port prio : Nat) (s : State) : Res :=
  onPause port prio s fun v _ => if v.wdDue s.time prio then s.fireWatchdog port prio else s

/-- WD_RECOVERY ends (R88). -/
def execPauseWdEnded (port prio : Nat) (s : State) : Res :=
  onPause port prio s fun v u =>
    match u.recovery with
    | some r => if v.recoveryOver s.time r then s.endRecovery port prio else s
    | none => s

/-- A quantum in picoseconds at a port's speed: 512 bit times. -/
def Port.quantumPs (v : Port) : Nat := 512000 / v.speed

/-- TX_REFRESH quanta have passed since the last XOFF frame left, while XOFF holds: the frame is sent again (R86). -/
def execXoffRefresh (port prio : Nat) (s : State) : Res :=
  onPause port prio s fun v u =>
    match u.xoffSent with
    | some t =>
      if u.xoff ∧ v.txRefresh ≠ 0 ∧ t + v.txRefresh.toNat * v.quantumPs ≤ s.time.runPs then s.sendPause port prio v.txQuanta.toNat
      else s
    | none => s

/-- Loads or clears the timer of a pause state from a received frame (R83, R85, R87). (DEDUCED: log entry 81.) -/
def State.loadPause (s : State) (p n quanta : Nat) : State :=
  match s.port? p with
  | none => s
  | some v =>
    let u := tget v.pause n {}
    if u.recovery.isSome then s
    else
      let u' : Pause :=
        if quanta = 0 then { u with until_ := none }
        else
          { u with
              until_ := some (s.time.runPs + quanta * v.quantumPs)
              since := if v.paused s.time n then u.since else s.time.runPs }
      s.setPort p { v with pause := tins v.pause n u' }

end Sys2Proof.Machine
end

