-- ==== Sys2Proof/Machine/Parsing.lean ====
section
/-!
DEFINITION. The commands of chapter 04 (R126 to R136).
-/

namespace Sys2Proof.Machine

/-- EPOCH of word 1 of a table command. -/
def epochOf (c : Cmd) : Nat := fld (wd c.words 1) 0 16

/-- REGION_MASK of word 0. -/
def regionMask (c : Cmd) : BitVec 4 := BitVec.ofNat 4 (fld (wd c.words 0) 16 4)

/-- PARSER_PORT_CONFIG (R129). -/
def parserPortConfigAct (c : Cmd) (s : State) : State × Option Ans :=
  let w := wd c.words 2
  onPort c s fun p _ =>
    if fld w 0 8 = 255 ∨ fld w 8 2 = 3 then fail s stBadParam else s.parseChange (epochOf c) (.portCfg p w)

def execParserPortConfig (c : Cmd) (s : State) : Res := .next (runCmd 0x0301 c s (parserPortConfigAct c))

/-- PARSE_STATE_WRITE (R106, R130). -/
def parseStateWriteAct (c : Cmd) (s : State) : State × Option Ans :=
  let i := fld (wd c.words 0) 0 8
  let p := pstateOf (wd c.words)
  let empty : Bool := !p.lenMode && decide (p.lenFixed = 0)
  if i = 255 ∨ 512 < p.lenFixed.toNat ∨ 512 < p.minLen.toNat ∨ (empty = false ∧ p.minLen = 0) ∨
      2048 < p.tBase.toNat + p.tCount.toNat ∨ 16 < p.tCount.toNat ∨ p.extracts.any (fun e => decide (e.2.width = 3)) then
    fail s stBadParam
  else s.parseChange (epochOf c) (.pstate i p)

def execParseStateWrite (c : Cmd) (s : State) : Res := .next (runCmd 0x0302 c s (parseStateWriteAct c))

/-- PARSE_TRANS_WRITE (R131). -/
def parseTransWriteAct (c : Cmd) (s : State) : State × Option Ans :=
  let v := wd c.words 2
  let m := wd c.words 3
  let w := wd c.words 4
  if v &&& ~~~ m ≠ 0 then fail s stBadParam
  else
    s.parseChange (epochOf c) (.ptrans (fld (wd c.words 0) 0 11)
      { value := v, mask := m, next := BitVec.ofNat 8 (fld w 0 8), setFlags := BitVec.ofNat 8 (fld w 8 8), valid := bit w 16 })

def execParseTransWrite (c : Cmd) (s : State) : Res := .next (runCmd 0x0303 c s (parseTransWriteAct c))

/-- PARSE_READ's words for a state (R135). -/
def readState (s : State) (i : Nat) : List Word :=
  let p := s.pstate i
  p.lengthWords ++ p.selectWords ++ p.extractWords

/-- PARSE_READ's words for a transition. -/
def readTrans (s : State) (i : Nat) : List Word :=
  let t := s.ptrans i
  [t.value, t.mask, pack [(0, t.next.toNat), (8, t.setFlags.toNat), (16, b2n t.valid)]]

/-- PARSE_READ (R135). -/
def parseReadAct (c : Cmd) (s : State) : State × Option Ans :=
  let w := wd c.words 0
  let i := fld w 16 11
  let r := s.classRegion (fld w 28 2)
  match fld w 0 3 with
  | 0 => if 254 < i then fail s stBadParam else done s (readState s i)
  | 1 => done s (readTrans s i)
  | 2 => if 31 < i then fail s stBadParam else done s (tget r.patterns i {}).words
  | 3 =>
    if 63 < i then fail s stBadParam
    else
      let g := tget r.ranges i {}
      done s [pack [(0, g.source.toNat), (7, b2n g.enable)], pack [(0, g.low.toNat), (16, g.high.toNat)]]
  | 4 => if 15 < i then fail s stBadParam else done s (bytesToWords (r.profile i) 7)
  | _ => fail s stBadParam

def execParseRead (c : Cmd) (s : State) : Res := .next (runCmd 0x0304 c s (parseReadAct c))

/-- Bits of a 128-bit pattern field at or beyond byte LEN. -/
def beyondLen (p : Pattern) (v : BitVec 128) : Bool := decide (v.toNat / 2 ^ (8 * p.len.toNat) ≠ 0)

/-- PATTERN_WRITE (R132). -/
def patternWriteAct (c : Cmd) (s : State) : State × Option Ans :=
  let p := patternOf c.words
  if regionMask c = 0 ∨ 16 < p.len.toNat ∨ beyondLen p p.value ∨ beyondLen p p.mask ∨ p.value &&& ~~~ p.mask ≠ 0 ∨
      (p.floating ∧ p.startMax < p.startMin) then fail s stBadParam
  else s.parseChange (epochOf c) (.pattern (regionMask c) (fld (wd c.words 0) 0 5) p)

def execPatternWrite (c : Cmd) (s : State) : Res := .next (runCmd 0x0305 c s (patternWriteAct c))

/-- RANGE_WRITE (R118, R133). -/
def rangeWriteAct (c : Cmd) (s : State) : State × Option Ans :=
  let low := fld (wd c.words 3) 0 16
  let high := fld (wd c.words 3) 16 16
  if regionMask c = 0 ∨ high < low then fail s stBadParam
  else
    s.parseChange (epochOf c) (.range (regionMask c) (fld (wd c.words 0) 0 6)
      { source := BitVec.ofNat 6 (fld (wd c.words 2) 0 6), enable := bit (wd c.words 2) 7
        low := BitVec.ofNat 16 low, high := BitVec.ofNat 16 high })

def execRangeWrite (c : Cmd) (s : State) : Res := .next (runCmd 0x0306 c s (rangeWriteAct c))

/-- KEY_PROFILE_WRITE (R134). -/
def keyProfileWriteAct (c : Cmd) (s : State) : State × Option Ans :=
  if regionMask c = 0 then fail s stBadParam
  else s.parseChange (epochOf c) (.profile (regionMask c) (fld (wd c.words 0) 0 4) (profileOf c.words))

def execKeyProfileWrite (c : Cmd) (s : State) : Res := .next (runCmd 0x0307 c s (keyProfileWriteAct c))

/-! ### Rules -/

/-- RULE_WRITE's words as a rule (Table 4-15). -/
def ruleOf (ws : List Word) : Rule :=
  { value := BitVec.ofNat 640 (numWords ws 2 20), mask := BitVec.ofNat 640 (numWords ws 22 20)
    act0 := wd ws 42, act1 := wd ws 43, act2 := wd ws 44 }

/-- What RULE_WRITE refuses about the rule itself (R121, R123). -/
def ruleRefused (r : Rule) : Bool :=
  decide (r.value &&& ~~~ r.mask ≠ 0) || decide (fld r.act0 6 2 = 3) || decide (fld r.act0 13 2 = 3) ||
  decide (fld r.act0 16 2 = 3) || decide (fld r.act2 0 2 = 3) ||
  (decide (fld r.act0 16 2 = 2) && decide (fld r.act0 13 2 ≠ 0))

/-- The index holds a valid rule in a region as this change sees it: its own epoch's staged rule, else the active one. -/
def State.ruleThere (s : State) (epoch region idx : Nat) : Bool :=
  let own := (s.parse.staged.filter fun e => decide (s.epochSlot epoch = some e.1) &&
    match e.2 with | .rule m i _ => decide (i = idx) && m.getLsbD region | _ => false).getLast?
  match (if epoch = 0 then none else own) with
  | some (_, .rule _ _ r) => r.isSome
  | _ => thas (s.classRegion region).rules idx

/-- RULE_WRITE (R121, R123, R135, R170). (DESIGN CHOICE: log entry 207.) -/
def ruleWriteAct (c : Cmd) (s : State) : State × Option Ans :=
  let w := wd c.words 0
  let idx := fld w 0 15
  let e := epochOf c
  let r := ruleOf c.words
  let dest := if fld r.act0 13 2 = 1 then s.destRefused (fld r.act2 0 2) (fld r.act2 2 20) e else none
  if regionMask c = 0 ∨ ruleRefused r then fail s stBadParam
  else
    match dest with
    | some st => fail s st
    | none =>
      let there := (maskRegions (regionMask c)).any fun g => s.ruleThere e g idx
      if s.clash e ((s.parse.staged.filter fun x => x.2.meets (.rule (regionMask c) idx none)).map (·.1)) then fail s stBusy
      else if there ∧ bit w 20 = false then fail s stExists
      else s.parseChange e (.rule (regionMask c) idx (some r))

def execRuleWrite (c : Cmd) (s : State) : Res := .next (runCmd 0x0308 c s (ruleWriteAct c))

/-- RULE_DELETE (R127, R128). -/
def ruleDeleteAct (c : Cmd) (s : State) : State × Option Ans :=
  let idx := fld (wd c.words 0) 0 15
  let e := epochOf c
  if regionMask c = 0 then fail s stBadParam
  else if s.clash e ((s.parse.staged.filter fun x => x.2.meets (.rule (regionMask c) idx none)).map (·.1)) then
    fail s stBusy
  else if (maskRegions (regionMask c)).all fun g => s.ruleThere e g idx then
    s.parseChange e (.rule (regionMask c) idx none)
  else fail s stNotFound

def execRuleDelete (c : Cmd) (s : State) : Res := .next (runCmd 0x0309 c s (ruleDeleteAct c))

/-- A 48-bit counter in two words, its sticky bit on top (R127, R184). -/
def C48.words (c : C48) : List Word :=
  [word c.val.toNat, pack [(0, c.val.toNat / 2 ^ 32), (31, b2n c.sticky)]]

/-- RULE_READ (R127, R135). -/
def ruleReadAct (c : Cmd) (s : State) : State × Option Ans :=
  let w := wd c.words 0
  let idx := fld w 0 15
  let g := fld w 16 2
  let staged := s.parse.staged.any fun x =>
    !(s.thawed x.1) && match x.2 with | .rule m i _ => decide (i = idx) && m.getLsbD g | _ => false
  match tget? (s.classRegion g).rules idx with
  | none => done s (pack [(1, b2n staged)] :: List.replicate 46 0)
  | some r =>
    if r.hits.frozen then fail s stUncorrected else
    let ws := pack [(0, 1), (1, b2n staged)] :: (wordsOf r.value.toNat 20 ++ wordsOf r.mask.toNat 20 ++
      [r.act0, r.act1, r.act2, 0] ++ r.hits.words)
    if bit w 31 then
      done (s.setClassRegion g { s.classRegion g with rules := tins (s.classRegion g).rules idx { r with hits := {} } }) ws
    else done s ws

def execRuleRead (c : Cmd) (s : State) : Res := .next (runCmd 0x030A c s (ruleReadAct c))

/-- PARSER_STATS_READ (R136). -/
def parserStatsReadAct (c : Cmd) (s : State) : State × Option Ans :=
  onPort c s fun p v =>
    let ws := (List.range 7).flatMap fun i => wordsOf (tget v.parserStat i 0).toNat 2
    if v.parserFrozen.isEmpty then done (if bit (wd c.words 1) 31 then s.setPort p { v with parserStat := [] } else s) ws
    else fail s stUncorrected

def execParserStatsRead (c : Cmd) (s : State) : Res := .next (runCmd 0x030B c s (parserStatsReadAct c))

end Sys2Proof.Machine
end

