-- ==== Sys2Proof/Machine/Tables.lean ====
section
/-!
DEFINITION. The commands of chapter 05 (R137 to R185).
-/

namespace Sys2Proof.Machine

/-! ### Partition and global settings -/

/-- Every store that TBL_PARTITION wants empty is empty (R138). -/
def State.hashedEmpty (s : State) : Bool :=
  s.tbl.em.all.isEmpty && s.tbl.v4.pool.all.isEmpty && s.tbl.v6.pool.all.isEmpty && s.tbl.v4.shadow.isEmpty &&
  s.tbl.v6.shadow.isEmpty

/-- TBL_PARTITION (R138). -/
def tblPartitionAct (c : Cmd) (s : State) : State × Option Ans :=
  let p := fld (wd c.words 2) 0 2
  if epochOf c ≠ 0 ∨ p = 3 then fail s stBadParam
  else if s.hashedEmpty then
    done { s with tbl := { s.tbl with
      profile := BitVec.ofNat 2 p, seed0 := wd c.words 3, seed1 := wd c.words 4 } }.tsnUp
  else fail s stBusy

def execTblPartition (c : Cmd) (s : State) : Res := .next (runCmd 0x0401 c s (tblPartitionAct c))

/-- The least AGE_PERIOD at a beat rate (R151, R152). -/
def leastAge (beats : Nat) : Nat := ceilDiv beats 10

/-- TBL_GLOBAL_CONFIG (R151, R176, R183). -/
def tblGlobalConfigAct (c : Cmd) (s : State) : State × Option Ans :=
  let age := fld (wd c.words 2) 0 24
  let hold := fld (wd c.words 3) 0 16
  if epochOf c ≠ 0 ∨ (age ≠ 0 ∧ age < leastAge s.time.beats.toNat) ∨ hold = 0 then fail s stBadParam
  else
    done { s with tbl := { s.tbl with
      agePeriod := BitVec.ofNat 24 age, notifyHold := BitVec.ofNat 16 hold, ecmpSeed := wd c.words 4
      ecmpFields := BitVec.ofNat 64 (wd64 c.words 5) } }.tsnUp

def execTblGlobalConfig (c : Cmd) (s : State) : Res := .next (runCmd 0x040E c s (tblGlobalConfigAct c))

/-- TBL_PORT_CONFIG (R176, R182). -/
def tblPortConfigAct (c : Cmd) (s : State) : State × Option Ans :=
  let w := wd c.words 2
  let limit := fld (wd c.words 3) 0 21
  let pvid := fld w 4 12
  onPort c s fun p v =>
    if epochOf c ≠ 0 ∨ fld w 0 2 = 3 ∨ pvid = 0 ∨ pvid = 4095 ∨ (1064960 < limit ∧ limit < noLimit) then fail s stBadParam
    else
      done ((s.setPort p
        { v with
            learnMode := BitVec.ofNat 2 (fld w 0 2), limitAct := bit w 2, missAct := bit w 3
            pvid := BitVec.ofNat 12 pvid, learnLimit := BitVec.ofNat 21 limit }).settleLimits).tsnUp

def execTblPortConfig (c : Cmd) (s : State) : Res := .next (runCmd 0x040D c s (tblPortConfigAct c))

/-- EM_KEY_PROFILE_WRITE (R140, R177). -/
def emKeyProfileWriteAct (c : Cmd) (s : State) : State × Option Ans :=
  if 2 < fld (wd c.words 2) 0 4 then fail s stBadParam
  else
    s.parseChange (epochOf c)
      (.emProfile (fld (wd c.words 0) 0 4) (wd c.words 2) (wd c.words 3) (wd c.words 4))

def execEmKeyProfileWrite (c : Cmd) (s : State) : Res := .next (runCmd 0x040F c s (emKeyProfileWriteAct c))

/-- TBL_STATUS (R184). (DESIGN CHOICE: log entry 212.) -/
def tblStatusAct (c : Cmd) (s : State) : State × Option Ans :=
  let w := wd c.words 0
  let p := fld w 0 10
  if bit w 10 ∧ s.hasPort p = false then fail s stNotFound
  else
    let t := s.tbl
    done s
      ([word t.em.all.length, word t.em.stash.length, word (t.v4.short.length + t.v4.pool.all.length),
        word (t.v6.short.length + t.v6.pool.all.length),
        pack [(0, t.v6.lengths.length), (8, t.v4.shadow.length + t.v6.shadow.length)]] ++
        t.tsn.words ++ t.learnDiscards.words ++ t.limitHits.words ++ t.macMoves.words ++ t.saConflict.words ++
        t.eccCorrected.words ++ [word (if bit w 10 then s.learnedCount p else 0)])

def execTblStatus (c : Cmd) (s : State) : Res := .next (runCmd 0x0410 c s (tblStatusAct c))

/-! ### The exact-match table -/

/-- The 128-bit entry image in words 2 to 5 of EM_INSERT. -/
def emImage (c : Cmd) : Nat := numWords c.words 2 4

/-- The entry an image writes: its RW fields (Table 5-3). -/
def entOf (img : Nat) : Ent :=
  { key := BitVec.ofNat 129 (img % 2 ^ 72), ftype := BitVec.ofNat 2 (img / 2 ^ 72), fid := BitVec.ofNat 20 (img / 2 ^ 74)
    cls := BitVec.ofNat 16 (img / 2 ^ 94), static := (img / 2 ^ 117) % 2 = 1, route := (img / 2 ^ 118) % 2 = 1
    kt := BitVec.ofNat 4 (img / 2 ^ 122) }

/-- The reserved and RO bits of an image: [111:110], [116:112], [121:119], [127:126]. -/
def imageRo (img : Nat) : Bool :=
  decide (img / 2 ^ 110 % 2 ^ 7 ≠ 0) || decide (img / 2 ^ 119 % 2 ^ 3 ≠ 0) || decide (img / 2 ^ 126 % 4 ≠ 0)

/-- The image of an entry, with HIT from one region's copy. -/
def Ent.image (e : Ent) (region : Nat) : List Word :=
  wordsOf (e.key.toNat % 2 ^ 72 + e.ftype.toNat * 2 ^ 72 + e.fid.toNat * 2 ^ 74 + e.cls.toNat * 2 ^ 94 + 2 ^ 112 +
    b2n e.moving * 2 ^ 113 + b2n (e.hit.getLsbD region) * 2 ^ 114 + e.age.toNat * 2 ^ 115 + b2n e.static * 2 ^ 117 +
    b2n e.route * 2 ^ 118 + e.stage.toNat * 2 ^ 119 + b2n e.slot * 2 ^ 121 + e.kt.toNat * 2 ^ 122) 4

/-- The slots of the staged changes pending among copies of a key. -/
def pendingSlots (l : List (Nat × Ent)) : List Bool :=
  l.filterMap fun x => if x.2.stage ≠ 0 then some x.2.slot else none

/-- The copy that a change under an epoch finds present: its own staged add, otherwise the live entry. -/
def presentCopy (l : List (Nat × Ent)) : Option (Nat × Ent) :=
  match l.find? fun x => decide (x.2.stage = 1) with
  | some x => some x
  | none => l.find? fun x => decide (x.2.stage = 0)

/-- Inserts, replaces or stages an entry of table `t` once its fields are checked (R143, R168, R170, R176). -/
def State.upsert (s : State) (t epoch : Nat) (replace : Bool) (e : Ent) (same : Ent → Ent) (after : State → State) :
    State × Option Ans :=
  let copies := s.copiesOfKey t e.kt e.key
  if s.clash epoch (pendingSlots copies) then fail s stBusy
  else
    match presentCopy copies with
    | some (loc, x) =>
      if replace = false then fail s stExists
      else if epoch = 0 ∨ x.stage = 1 then s.change epoch fun u _ => after (u.modEnt t loc same)
      else
        match s.makePlace t e.kt e.key with
        | none => fail s stTableFull
        | some _ =>
          s.change epoch fun u slot =>
            match u.makePlace t e.kt e.key with
            | none => u
            | some (u, l) =>
              let b := slot.getD false
              let u := u.putEnt t l { e with stage := 1, slot := b }
              let old := (u.copiesOfKey t e.kt e.key).find? fun y => decide (y.2.stage = 0)
              after (match old with
                | some (o, _) => u.modEnt t o fun y => { y with stage := 2, slot := b }
                | none => u)
    | none =>
      match s.makePlace t e.kt e.key with
      | none => fail s stTableFull
      | some _ =>
        s.change epoch fun u slot =>
          match u.makePlace t e.kt e.key with
          | none => u
          | some (u, l) =>
            let m := markOf 1 slot
            after (u.putEnt t l { e with stage := m.stage, slot := m.slot })

/-- Deletes an entry of table `t`, or stages its deletion; an own staged add is taken back (R168, R170). -/
def State.erase (s : State) (t epoch : Nat) (kt : BitVec 4) (key : BitVec 129) (after : State → State) :
    State × Option Ans :=
  let copies := s.copiesOfKey t kt key
  if s.clash epoch (pendingSlots copies) then fail s stBusy
  else
    match presentCopy copies with
    | none => fail s stNotFound
    | some (loc, x) =>
      s.change epoch fun u slot =>
        after (match slot with
          | some b => if x.stage = 1 then u.delEnt t loc else u.modEnt t loc fun y => { y with stage := 2, slot := b }
          | none => u.delEnt t loc)

/-- EM_INSERT (R139, R140, R143, R176). -/
def emInsertAct (c : Cmd) (s : State) : State × Option Ans :=
  let img := emImage c
  let e := entOf img
  if imageRo img ∨ e.ftype = 3 ∨ 2 < e.kt.toNat then fail s stBadParam
  else
    match (if e.route then none else s.destRefused e.ftype.toNat e.fid.toNat (epochOf c)) with
    | some st => fail s st
    | none =>
      s.upsert 0 (epochOf c) (bit (wd c.words 0) 0) e
        (fun x => { x with ftype := e.ftype, fid := e.fid, cls := e.cls, static := e.static, route := e.route })
        State.settleLimits

def execEmInsert (c : Cmd) (s : State) : Res := .next (runCmd 0x0402 c s (emInsertAct c))

/-- The key words of Table 5-8: KEY and KEY_TYPE. -/
def keyWords (ws : List Word) : BitVec 4 × BitVec 129 :=
  (BitVec.ofNat 4 (fld (wd ws 4) 12 4), BitVec.ofNat 129 (wd64 ws 2 + fld (wd ws 4) 0 8 * 2 ^ 64))

/-- EM_DELETE (R140, R176, R177). -/
def emDeleteAct (c : Cmd) (s : State) : State × Option Ans :=
  let k := keyWords c.words
  if 2 < k.1.toNat then fail s stBadParam else s.erase 0 (epochOf c) k.1 k.2 State.settleLimits

def execEmDelete (c : Cmd) (s : State) : Res := .next (runCmd 0x0403 c s (emDeleteAct c))

/-! ### Prefixes -/

/-- The prefix in words 2 to 5 as an address (Table 5-9). -/
def prefixOf (fam : Nat) (ws : List Word) : Nat :=
  if fam = 0 then (wd ws 2).toNat
  else (((wd ws 2).toNat * 2 ^ 32 + (wd ws 3).toNat) * 2 ^ 32 + (wd ws 4).toNat) * 2 ^ 32 + (wd ws 5).toNat

/-- A prefix that Table 5-9 and R178 refuse. -/
def prefixBad (fam len pfx : Nat) (ws : List Word) : Bool :=
  decide (famWidth fam < len) || decide (pfx % 2 ^ (famWidth fam - len) ≠ 0) ||
  (decide (fam = 0) && (decide (wd ws 3 ≠ 0) || decide (wd ws 4 ≠ 0) || decide (wd ws 5 ≠ 0)))

/-- Writes a short prefix's change into the shadow store: none when the store is full (R157), otherwise over an entry of the same prefix
and mark, or in a free one. -/
def Lpm.putShadow (l : Lpm) (x : Shadow) : Option Lpm :=
  if 64 ≤ l.shadow.length then none
  else match l.shadow.find? fun e =>
      decide (e.2.plen = x.plen) && decide (e.2.bits = x.bits) && decide (e.2.staged = x.staged) with
  | some (i, _) => some { l with shadow := tins l.shadow i x }
  | none => ((List.range 64).find? fun i => !(thas l.shadow i)).map fun i => { l with shadow := tins l.shadow i x }

/-- A change of a short prefix: at once into the committed set, or staged in the shadow store. -/
def State.shortChange (s : State) (epoch fam len pfx : Nat) (r : Option Word) : State × Option Ans :=
  let x (b : Option Bool) : Shadow := { plen := len, bits := BitVec.ofNat 16 (directIdx fam pfx), result := r, staged := b }
  let slot := if epoch = 0 then none else some ((s.slotFor epoch).toOption.getD false)
  if ((s.lpm fam).putShadow (x slot)).isNone then fail s stBusy
  else
    s.change epoch fun u slot =>
      match (u.lpm fam).putShadow (x slot) with
      | none => u
      | some l =>
        if slot.isSome then u.setLpm fam l
        else
          u.setLpm fam { l with
            short := match r with
              | some w => tins l.short (shortKey fam len pfx) w
              | none => tdel l.short (shortKey fam len pfx) }

/-- The default-route register's change. -/
def State.defChange (s : State) (epoch fam : Nat) (r : Option Word) : State × Option Ans :=
  s.change epoch fun u slot =>
    let l := u.lpm fam
    u.setLpm fam { l with
      defRoute := match slot with
        | some b => { l.defRoute with staged := some (b, r) }
        | none => { live := r, staged := none } }

/-- A prefix of length 0 to 16 is present to a change: as its own epoch staged it, otherwise as committed. -/
def State.shortThere (s : State) (fam len pfx : Nat) : Bool :=
  let l := s.lpm fam
  if len = 0 then
    match l.defRoute.staged with
    | some (_, r) => r.isSome
    | none => l.defRoute.live.isSome
  else
    match l.shadow.find? fun e =>
        decide (e.2.plen = len) && decide (e.2.bits.toNat = directIdx fam pfx) && e.2.staged.isSome with
    | some e => e.2.result.isSome
    | none => thas l.short (shortKey fam len pfx)

/-- The pool's length tables after a change of entries (R153). -/
def State.relength (s : State) (fam : Nat) (len : Option Nat) : State :=
  if fam = 0 then s else s.setLpm 1 ((s.lpm 1).assign len)

/-- The length would be a 17th of the IPv6 length tables (R154). -/
def State.lengthsFull (s : State) (fam len : Nat) : Bool :=
  decide (fam = 1) && decide (16 < len) && decide (16 ≤ s.tbl.v6.lengths.length) &&
    !(s.tbl.v6.lengths.any fun e => decide (e.2 = len))

/-- LPM_INSERT (R153 to R158, R178). -/
def lpmInsertAct (c : Cmd) (s : State) : State × Option Ans :=
  let w := wd c.words 0
  let fam := fld w 0 1
  let len := fld w 1 8
  let pfx := prefixOf fam c.words
  let r := wd c.words 6
  let e := epochOf c
  if prefixBad fam len pfx c.words then fail s stBadParam
  else
    match s.destRefused (fld r 0 2) (fld r 2 18) e with
    | some st => fail s st
    | none =>
      if len ≤ 16 then
        if s.clash e (s.prefixPending fam len pfx) then fail s stBusy
        else if s.shortThere fam len pfx ∧ bit w 9 = false then fail s stExists
        else if len = 0 then s.defChange e fam (some r)
        else s.shortChange e fam len pfx (some r)
      else if s.lengthsFull fam len then fail s stTableFull
      else
        let x := poolEnt fam len pfx r {}
        s.upsert (1 + fam) e (bit w 9) x (fun y => { y with ftype := x.ftype, fid := x.fid, cls := x.cls })
          fun t => t.relength fam (some len)

def execLpmInsert (c : Cmd) (s : State) : Res := .next (runCmd 0x0404 c s (lpmInsertAct c))

/-- LPM_DELETE (R157, R158, R178). -/
def lpmDeleteAct (c : Cmd) (s : State) : State × Option Ans :=
  let w := wd c.words 0
  let fam := fld w 0 1
  let len := fld w 1 8
  let pfx := prefixOf fam c.words
  let e := epochOf c
  if prefixBad fam len pfx c.words then fail s stBadParam
  else if len ≤ 16 then
    if s.clash e (s.prefixPending fam len pfx) then fail s stBusy
    else if s.shortThere fam len pfx = false then fail s stNotFound
    else if len = 0 then s.defChange e fam none
    else s.shortChange e fam len pfx none
  else s.erase (1 + fam) e 0 (poolKey fam len pfx) fun t => t.relength fam none

def execLpmDelete (c : Cmd) (s : State) : Res := .next (runCmd 0x0405 c s (lpmDeleteAct c))

/-! ### Search and iteration -/

/-- The image of a prefix (R179). -/
def PrefixHit.image (h : PrefixHit) : List Word :=
  [h.result, pack [(0, h.len), (8, h.stage.toNat), (10, b2n h.slot), (11, b2n h.moving)], 0, 0]

/-- A TBL_SEARCH reply. -/
def searchReply (staged : Bool) (hit : Option (Nat × List Word)) : List Word :=
  match hit with
  | some (loc, img) => [pack [(0, 1), (1, b2n staged)], word loc] ++ img
  | none => [pack [(1, b2n staged)], 0, 0, 0, 0, 0]

/-- TBL_SEARCH (R171, R179). Of a longest-prefix search STAGED speaks of the prefix that was hit.
(DESIGN CHOICE: log entries 191, 210.) -/
def tblSearchAct (c : Cmd) (s : State) : State × Option Ans :=
  let w := wd c.words 0
  match fld w 0 2 with
  | 0 =>
    let k := keyWords c.words
    if 2 < k.1.toNat ∨ (wd c.words 4).toNat &&& 0xFFFF0F00 ≠ 0 ∨ wd c.words 5 ≠ 0 then fail s stBadParam
    else
      let staged := !(pendingSlots (s.copiesOfKey 0 k.1 k.2)).isEmpty
      done s (searchReply staged ((s.findEnt 0 k.1 k.2).map fun x => (x.1, x.2.image (fld w 2 2))))
  | 3 => fail s stBadParam
  | t =>
    let fam := t - 1
    let a := prefixOf fam c.words
    let len := fld w 4 8
    if bit w 12 then
      if prefixBad fam len a c.words then fail s stBadParam
      else
        done s (searchReply (!(s.prefixPending fam len a).isEmpty)
          ((s.prefixAt fam len a).map fun h => (h.loc, h.image)))
    else if prefixBad fam (famWidth fam) a c.words then fail s stBadParam
    else
      match s.lpmFind fam a with
      | none => done s (searchReply false none)
      | some h =>
        done s (searchReply (!(s.prefixPending fam h.len (cutAddr fam h.len a)).isEmpty) (some (h.loc, h.image)))

def execTblSearch (c : Cmd) (s : State) : Res := .next (runCmd 0x0406 c s (tblSearchAct c))

/-- The record of an entry in an iteration: its location and image. -/
def nextRecord (t region : Nat) (x : Nat × Ent) : List Word :=
  word x.1 ::
    if t = 0 then x.2.image region
    else
      PrefixHit.image
        { loc := x.1, result := x.2.result, len := x.2.klen, stage := x.2.stage, slot := x.2.slot, moving := x.2.moving }

/-- The visible entries that a cursor carries. -/
def State.cursorCarried (s : State) (t : Nat) (cu : Cursor) : List (Nat × Ent) :=
  cu.carry.filterMap fun e => (s.copiesOfKey t e.kt e.key).find? fun x => x.2.same e && s.entSeen x.2

/-- What a cursor still returns: the carried entries, then the visible entries from its position on that no move has
already returned (R172). -/
def State.cursorRest (s : State) (t : Nat) (cu : Cursor) : List (Nat × Ent) :=
  s.cursorCarried t cu ++
    (s.ht t).all.filter fun x => decide (cu.next ≤ x.1) && s.entSeen x.2 && !(cu.skip.any (·.same x.2))

/-- TBL_NEXT (R172, R179). A cursor closes by itself with the reply that returns END; a CLOSE answers one word 0, also for a cursor that
is not open; OPEN with CLOSE is refused. (DESIGN CHOICE: log entries 190, 209.) -/
def tblNextAct (c : Cmd) (s : State) : State × Option Ans :=
  let w := wd c.words 0
  let t := fld w 0 2
  let k := 4 * t + fld w 2 2
  let n := fld w 6 8
  let opened := (List.range 4).filter fun i => thas s.tbl.cursors (4 * t + i)
  let setC (u : State) (x : Option Cursor) : State :=
    { u with tbl := { u.tbl with cursors := match x with | some v => tins u.tbl.cursors k v | none => tdel u.tbl.cursors k } }
  if epochOf c ≠ 0 ∨ t = 3 ∨ n = 0 ∨ 128 < n ∨ (bit w 4 ∧ bit w 5) then fail s stBadParam
  else if bit w 5 then done (setC s none) [0]
  else if bit w 4 ∧ opened.length = 4 then fail s stBusy
  else
    match (if bit w 4 then some ({} : Cursor) else tget? s.tbl.cursors k) with
    | none => fail s stEpochStale
    | some cu =>
      if cu.overflow then fail (setC s none) stEpochStale
      else
        let rest := s.cursorRest t cu
        let now := rest.take n
        let more := rest.drop n
        let last := (now.map Prod.fst).foldl max cu.next
        let cu' : Cursor :=
          { cu with
              next := if (s.cursorCarried t cu).length < now.length then last + 1 else cu.next
              carry := cu.carry.filter fun e => more.any fun x => x.2.same e }
        done (setC s (if more.isEmpty then none else some cu'))
          (pack [(0, b2n more.isEmpty), (1, now.length)] :: now.flatMap (nextRecord t (fld w 14 2)))

def execTblNext (c : Cmd) (s : State) : Res := .next (runCmd 0x0407 c s (tblNextAct c))

/-! ### Flush -/

/-- TBL_FLUSH (R173): the matching entries present at the commit are deleted; the task's end replies. A staged add that has not thawed
is kept. (DESIGN CHOICE: log entry 173.) -/
def tblFlushAct (c : Cmd) (s : State) : State × Option Ans :=
  let w := wd c.words 0
  onPort c s fun p _ =>
    if epochOf c ≠ 0 then fail s stBadParam
    else
      let hit (e : Ent) : Bool :=
        decide (e.ftype = 0) && decide (e.fid.toNat = p) && (bit w 10 || !e.static) && s.entSeen e &&
        (!(bit w 11) || (decide (e.kt = 0) && decide (e.key.toNat / 2 ^ 48 % 4096 = fld w 12 12)))
      let gone := s.tbl.em.all.filter fun x => hit x.2
      let t := gone.foldl (fun u x => (u.delEnt 0 x.1).tsnUp) s.tsnUp
      let t := t.settleLimits
      ({ t with tbl := { t.tbl with
          flushes := t.tbl.flushes ++
            [{ port := p, statics := bit w 10, vid := if bit w 11 then some (BitVec.ofNat 12 (fld w 12 12)) else none
               count := gone.length, cmd := c }] } }, none)

def execTblFlush (c : Cmd) (s : State) : Res := .next (runCmd 0x0408 c s (tblFlushAct c))

/-- The flush task of a port ends: FLUSH_DONE, and the reply with the count (R173). -/
def execFlushDone (port : Nat) (s : State) : Res :=
  onNum (decide (port < 1024))
    (match s.tbl.flushes.find? fun f => decide (f.port = port) with
      | none => s
      | some f =>
        let t := { s with tbl := { s.tbl with flushes := s.tbl.flushes.erase f } }
        (t.raise 0 0x0407 [word port, word f.count] (some port)).answer f.cmd { words := [word f.count] })

/-! ### Objects -/

/-- Fields of an edit record (Table 5-12), its words counted from word 2. -/
def editSetDa (ws : List Word) : Bool := bit (wd ws 0) 0
def editSetSa (ws : List Word) : Bool := bit (wd ws 0) 1
def editVlanOp (ws : List Word) : Nat := fld (wd ws 0) 2 2
def editTtlDec (ws : List Word) : Bool := bit (wd ws 0) 4
def editVxlan (ws : List Word) : Bool := bit (wd ws 0) 5

/-- The reserved bits of an object's words, by kind (Tables 5-11 and 5-12). -/
def objUsed (kind : Nat) : List Nat :=
  match kind with
  | 0 => [0x1FFFFFF, 0]
  | 1 => [0x3FFFFFF, 0]
  | _ => [0x3F, allBits, 0xFFFF, allBits, 0xFFFF, allBits, 0xFFFFFF, allBits, allBits, 0xFFFF, 0, 0, 0, 0, 0, 0]

/-- What TBL_OBJ_WRITE refuses about an edit record (R163). -/
def editRefused (ws : List Word) : Bool :=
  let tpid := fld (wd ws 5) 16 16
  ((decide (editVlanOp ws = 1) || decide (editVlanOp ws = 2)) && decide (tpid ≠ 0x8100) && decide (tpid ≠ 0x88A8)) ||
  (editVxlan ws && (!(editSetDa ws) || !(editSetSa ws) || editTtlDec ws || decide (fld (wd ws 9) 0 8 = 0)))

/-- The checks on an object's own fields: none when they pass. -/
def State.objFields (s : State) (kind epoch : Nat) (ws : List Word) : Option Nat :=
  let o : Obj := { words := ws }
  match kind with
  | 0 =>
    if s.hasPort o.port = false then some stNotFound
    else match o.edit? with | some i => s.objRefused 2 i epoch | none => none
  | 1 => if o.size = 0 ∨ 512 < o.size ∨ 65536 < o.base + o.size then some stBadParam else none
  | _ => if editRefused ws then some stBadParam else none

/-- The group's slots overlap those of another group (R162). (DESIGN CHOICE: log entry 208.) -/
def State.groupOverlaps (s : State) (ws : List Word) : Bool :=
  let o : Obj := { words := ws }
  s.tbl.groups.any fun e => decide (o.base < e.2.base + e.2.size) && decide (e.2.base < o.base + o.size)

/-- TBL_OBJ_WRITE (R162, R163, R165, R170, R180). -/
def tblObjWriteAct (c : Cmd) (s : State) : State × Option Ans :=
  let kind := fld (wd c.words 0) 0 2
  let id := fld (wd c.words 0) 2 18
  let ws := c.words.drop 2
  let e := epochOf c
  if kind = 3 ∨ objMax kind < id ∨ usedOk (objUsed kind) ws = false then fail s stBadParam
  else
    match s.objFields kind e ws with
    | some st => fail s st
    | none =>
      match tget? (s.objs kind) id with
      | some o =>
        if o.freeing.isSome then fail s stBusy
        else if o.mark.stage ≠ 0 ∧ s.clash e [o.mark.slot] = true then fail s stBusy
        else fail s stExists
      | none =>
        if kind = 1 ∧ s.groupOverlaps ws then fail s stExists
        else s.change e fun u slot => u.setObjs kind (tins (u.objs kind) id { words := ws, mark := markOf 1 slot })

def execTblObjWrite (c : Cmd) (s : State) : Res := .next (runCmd 0x0409 c s (tblObjWriteAct c))

/-- TBL_OBJ_DELETE (R165, R170). A staged write of a group's member slot is no staged change of the group itself.
(DESIGN CHOICE: log entry 176.) -/
def tblObjDeleteAct (c : Cmd) (s : State) : State × Option Ans :=
  let kind := fld (wd c.words 0) 0 2
  let id := fld (wd c.words 0) 2 18
  if kind = 3 ∨ objMax kind < id then fail s stBadParam
  else
    match tget? (s.objs kind) id with
    | none => fail s stNotFound
    | some o =>
      if o.freeing.isSome then fail s stNotFound
      else if o.mark.stage ≠ 0 ∨ s.tableRefs { kind := kind, id := id } ≠ 0 then fail s stBusy
      else
        s.change (epochOf c) fun u slot =>
          match slot with
          | none => u.deleteObj kind id
          | some _ => u.setObjs kind (tmod (u.objs kind) id fun x => { x with mark := markOf 2 slot })

def execTblObjDelete (c : Cmd) (s : State) : Res := .next (runCmd 0x040A c s (tblObjDeleteAct c))

/-- TBL_OBJ_STATUS (R181). (DESIGN CHOICE: log entry 211.) -/
def tblObjStatusAct (c : Cmd) (s : State) : State × Option Ans :=
  let kind := fld (wd c.words 0) 0 2
  let id := fld (wd c.words 0) 2 18
  let r : ObjRef := { kind := kind, id := id }
  if kind = 3 ∨ objMax kind < id then fail s stBadParam
  else
    match tget? (s.objs kind) id with
    | none => done s [0, 0, 0, 0, 0]
    | some o =>
      let st := if o.freeing.isSome then 2 else if o.mark.stage = 1 ∧ s.thawed o.mark.slot = false then 3 else 1
      done s ([word st, word (s.tableRefs r), word (s.inflight r)] ++ wordsOf ((o.freeing.getD 0).toNat) 2)

def execTblObjStatus (c : Cmd) (s : State) : Res := .next (runCmd 0x040B c s (tblObjStatusAct c))

/-- ECMP_MEMBER_WRITE (R162, R170). With VALID 0 it names no next hop. (DEDUCED, DESIGN CHOICE: log entries 75, 175.) -/
def ecmpMemberWriteAct (c : Cmd) (s : State) : State × Option Ans :=
  let slotNo := fld (wd c.words 0) 0 16
  let hop := fld (wd c.words 2) 0 17
  let valid := bit (wd c.words 2) 17
  let e := epochOf c
  let m := tget s.tbl.members slotNo {}
  match s.tbl.groups.find? fun g => decide (g.2.base ≤ slotNo) && decide (slotNo < g.2.base + g.2.size) with
  | none => fail s stNotFound
  | some g =>
    match s.objRefused 1 g.1 e with
    | some st => fail s st
    | none =>
      match (if valid then s.objRefused 0 hop e else none) with
      | some st => fail s st
      | none =>
        if s.clash e (m.staged.map (·.1)).toList then fail s stBusy
        else
          s.change e fun u slot =>
            let m' : Member :=
              match slot with
              | some b => { m with staged := some (b, BitVec.ofNat 17 hop, valid) }
              | none => { hop := BitVec.ofNat 17 hop, valid := valid }
            { u with tbl := { u.tbl with members := tset u.tbl.members slotNo {} m' } }

def execEcmpMemberWrite (c : Cmd) (s : State) : Res := .next (runCmd 0x040C c s (ecmpMemberWriteAct c))

/-- A PENDING_FREE object whose INFLIGHT is 0 becomes FREE (R165). -/
def execObjectFreed (kind id : Nat) (s : State) : Res :=
  onNum (decide (kind < 3) && decide (id ≤ objMax kind))
    (match tget? (s.objs kind) id with
      | some o => if o.freeing.isSome ∧ s.inflight { kind := kind, id := id } = 0 then s.freeObj kind id else s
      | none => s)

/-! ### Internal tasks -/

/-- The key of a table event in three words, KEY_TYPE on top (R358). -/
def keyEvent (kt : BitVec 4) (key : BitVec 129) : List Word :=
  wordsOf key.toNat 2 ++ [pack [(0, key.toNat / 2 ^ 64 % 256), (8, kt.toNat)]]

/-- An ageing sweep visits an entry, once in the sweep wherever a relocation takes it (R151). -/
def execAgeSweepVisit (loc : Word) (s : State) : Res :=
  .next
    (match s.tbl.sweep with
      | none => s
      | some seen =>
        match s.tbl.em.at? loc.toNat with
        | none => s
        | some e =>
          if e.static ∨ e.moving ∨ e.stage ≠ 0 ∨ (e.kt, e.key) ∈ seen then s
          else
            let s := { s with tbl := { s.tbl with sweep := some ((e.kt, e.key) :: seen) } }
            if e.hit ≠ 0 then s.modEnt 0 loc.toNat fun x => { x with hit := 0, age := 0 }
            else if e.age ≠ 3 then s.modEnt 0 loc.toNat fun x => { x with age := x.age + 1 }
            else
              ((s.delEnt 0 loc.toNat).settleLimits.tsnOwn).raise 0 0x0403 (keyEvent e.kt e.key ++ [word e.fid.toNat])
                (if e.ftype = 0 then some e.fid.toNat else none))

/-- An insertion or move that the port's limit refuses (R149). -/
def State.limitHit (s : State) (p : Nat) : State :=
  let t := { s with tbl := { s.tbl with limitHits := s.tbl.limitHits.add 1 } }
  if (t.port p).limitArmed ∧ t.hasPort p then
    (t.modPort p fun v => { v with limitArmed := false }).raise 0 0x0404 [word p] (some p)
  else t

def State.learnDiscard (s : State) : State :=
  { s with tbl := { s.tbl with learnDiscards := s.tbl.learnDiscards.add 1 } }

/-- MAC_MOVE is counted and raised (R147). -/
def State.macMove (s : State) (kt : BitVec 4) (key : BitVec 129) (old new : Nat) : State :=
  ({ s with tbl := { s.tbl with macMoves := s.tbl.macMoves.add 1 } }).raiseOn 0 0x0402
    (keyEvent kt key ++ [word old, word new]) [old, new]

/-- The central steward takes one learn request (R148, R149). -/
def State.learnOne (s : State) (q : LearnReq) : State :=
  let copies := s.copiesOfKey 0 q.kt q.key
  if copies.any fun x => decide (x.2.stage ≠ 0) then s.learnDiscard
  else
    match copies with
    | (loc, e) :: _ =>
      if e.static ∨ e.ftype ≠ 0 ∨ e.fid.toNat = q.port then s
      else if s.limitReached q.port then s.limitHit q.port
      else
        ((s.modEnt 0 loc fun x => { x with fid := BitVec.ofNat 20 q.port }).settleLimits.tsnOwn).macMove q.kt q.key
          e.fid.toNat q.port
    | [] =>
      if s.limitReached q.port then s.limitHit q.port
      else
        match s.makePlace 0 q.kt q.key with
        | some (t, l) =>
          ((t.putEnt 0 l { kt := q.kt, key := q.key, fid := BitVec.ofNat 20 q.port }).settleLimits.tsnOwn).raise 0 0x0401
            (keyEvent q.kt q.key ++ [word q.port]) (some q.port)
        | none =>
          let t := s.learnDiscard
          if t.tbl.fullBeat = some t.time.beatRun then t
          else ({ t with tbl := { t.tbl with fullBeat := some t.time.beatRun } }).raise 0 0x0405 []

/-- The first request of a region whose port no flush holds (R148, R173). -/
def execLearnInsert (region : Nat) (s : State) : Res :=
  onNum (decide (region < 4))
    (let s := s.finishMoves
     let c := s.copyOf region
     match c.learnQ.find? fun q => s.tbl.flushes.all fun f => decide (f.port ≠ q.port) with
      | none => s
      | some q => (s.setCopy region { c with learnQ := c.learnQ.erase q }).learnOne q)

/-- A stash entry moves into a candidate bucket with a free slot (R145). -/
def execStashMove (table idx : Nat) (s : State) : Res :=
  onNum (decide (table < 3) && decide (idx < stashSize table))
    (let s := s.finishMoves
     match (s.ht table).at? (stashBase + idx) with
      | none => s
      | some e =>
        let b := s.buckets table e.kt e.key
        match ((s.ht table).freeSlot b.1).orElse fun _ => (s.ht table).freeSlot b.2 with
        | some l => (s.moveEnt table (stashBase + idx) l).stashWatch
        | none => s)

/-- The direct entries of a short prefix are rewritten and its shadow entry is free (R157). -/
def execShadowRewriteDone (family idx : Nat) (s : State) : Res :=
  onNum (decide (family < 2) && decide (idx < 64))
    (let l := s.lpm family
     match tget? l.shadow idx with
      | some x => if x.staged.isNone then s.setLpm family { l with shadow := tdel l.shadow idx } else s
      | none => s)

/-- A thawed epoch's cleanup ends; its slot is free and it is IDLE again (R169, R353). -/
def execEpochCleanupDone (epoch : BitVec 16) (s : State) : Res :=
  .next
    (match s.epoch? epoch.toNat with
      | some x =>
        if x.state = .cleaning then
          (match x.slot with | some b => s.cleanTables b | none => s).dropEpoch epoch.toNat
        else s
      | none => s)

/-- A rebuilt copy equals its source: HIT is set in every entry and the region returns to its own copy (R175). -/
def execCopyRebuildDone (region : Nat) (s : State) : Res :=
  onNum (decide (region < 4))
    (let c := s.copyOf region
     match c.rebuilding, c.borrowFrom with
     | none, _ => s
     | some _, none => s
     | some mark, some _ =>
       let set : Ent → Ent := fun e => { e with hit := e.hit ||| BitVec.ofNat 4 (2 ^ region) }
       let t := s.setHt 0
         { locs := s.tbl.em.locs.map fun e => (e.1, set e.2), stash := s.tbl.em.stash.map fun e => (e.1, set e.2) }
       let t := (t.setCopy region { c with borrowFrom := none, rebuilding := none, badWords := [] }).reborrow
       match mark with
       | some m => t.recoverMark m 4 0
       | none => t)

end Sys2Proof.Machine
end

