-- ==== Sys2Proof/Machine/TableMemory.lean ====
section
/-!
DEFINITION. Table memory under ECC (R174, R175, R381, R396): the addresses of its words, corrected words, and the loss of one.
-/

namespace Sys2Proof.Machine

/-- The address of a table word: 0 to 2 the tables, with the place as TBL_SEARCH numbers it and the stash behind, 3 to 5 the objects,
6 the shadow stores, 7 the ECMP members, 8 the default routes and the exact-match key profiles, 9 to 15 the stores of the parser and
classifier. (DESIGN CHOICE: log entry 192.) -/
def tableWord (kind i : Nat) : Nat := kind * 2 ^ 28 + if kind < 3 ∧ stashBase ≤ i then 2 ^ 27 + (i - stashBase) else i

/-- The word of a staged change of a parsing object, and the regions whose stores the change is for. -/
def parseWord : ParseChange → Nat × BitVec 4
  | .portCfg p _ => (tableWord 9 p, 1#4 <<< laneRegion p)
  | .pstate i _ => (tableWord 10 i, 15)
  | .ptrans i _ => (tableWord 11 i, 15)
  | .pattern m i _ => (tableWord 12 i, m)
  | .range m i _ => (tableWord 13 i, m)
  | .profile m i _ => (tableWord 14 i, m)
  | .rule m i _ => (tableWord 15 i, m)
  | .emProfile i _ _ _ => (tableWord 8 (2 + i), 15)

/-- The table words of what is staged under an epoch slot, each with the regions that have a copy of it: every region, for the tables
and their objects (R165). -/
def State.stagedWords (s : State) (slot : Bool) : List (Nat × BitVec 4) :=
  ((List.range 3).flatMap fun t =>
    (s.ht t).all.filterMap fun e => if e.2.stage ≠ 0 ∧ e.2.slot = slot then some (tableWord t e.1, 15) else none) ++
  ((List.range 3).flatMap fun k =>
    (s.objs k).filterMap fun e => if e.2.mark.stage ≠ 0 ∧ e.2.mark.slot = slot then some (tableWord (3 + k) e.1, 15) else none) ++
  ((List.range 2).flatMap fun f =>
    (s.lpm f).shadow.filterMap fun e => if e.2.staged = some slot then some (tableWord 6 (64 * f + e.1), 15) else none) ++
  (s.tbl.members.filterMap fun e => if e.2.staged.map Prod.fst = some slot then some (tableWord 7 e.1, 15) else none) ++
  ((List.range 2).filterMap fun f => if (s.lpm f).defRoute.staged.map Prod.fst = some slot then some (tableWord 8 f, 15) else none) ++
  s.parse.staged.filterMap fun e => if e.1 = slot then some (parseWord e.2) else none

/-- A region's copy of a word is lost: the word itself, or the whole copy with its die. -/
def State.wordLost (s : State) (addr r : Nat) : Bool :=
  s.dieStopped (regionDie r) || (s.copyOf r).badWords.contains addr || decide ((s.copyOf r).rebuilding = some none)

/-- No region that has a copy of a staged word has a healthy one any more. -/
def State.copiesLost (s : State) (addr : Nat) (copies : BitVec 4) : Bool :=
  (List.range 4).all fun r => !copies.getLsbD r || s.wordLost addr r

/-- The epochs that have lost the last healthy copy of a staged entry or object at a word are abandoned before their thaw (R396). -/
def State.loseStaged (s : State) (addr : Nat) : State :=
  let lost (slot : Bool) : Bool := (s.stagedWords slot).any fun w => decide (w.1 = addr) && s.copiesLost addr w.2
  s.cif.epochs.foldl
    (fun t (x : Epoch) =>
      if (x.state = .staging ∨ x.state = .scheduled) ∧ x.slot.any lost = true then t.abandonEpoch x.epoch.toNat 3 else t) s

/-- An uncorrectable word of a region's table memory. Where no copy is healthy the region goes on with its own copy, and its rebuild
waits for one that is. (DESIGN CHOICE: log entry 136.) -/
def State.tableLost (s : State) (region : Nat) (addr : Word) : State :=
  let m := s.mark dTableUe region addr.toNat
  let s := s.setCopy region { s.copyOf region with badWords := addr.toNat :: (s.copyOf region).badWords }
  let s := s.loseStaged addr.toNat
  if (s.copyOf region).rebuilding.isSome then s.detectLog dTableUe region addr.toNat
  else
    let x := s.fresh
    let t := (x.2.detect dTableUe region addr.toNat true).recovered dTableUe region addr.toNat 3 (x.1 % 2001) 0 true m.injected
    (t.borrow region (some m)).reborrow

/-- A corrected table word (R174). -/
def State.tableHit (s : State) (region addr : Nat) : State :=
  let t := s.detect dTableCe region addr false
  { t with tbl := { t.tbl with eccCorrected := t.tbl.eccCorrected.add 1 } }

/-- Corrected words, whose addresses the row does not tell. -/
def State.tableCorrected (s : State) (region : Nat) : Nat → State
  | 0 => s
  | n + 1 =>
    let x := s.fresh
    (x.2.tableHit region (x.1 % 2 ^ 32)).tableCorrected region n

/-- The lookups of a packet read words of a region's copy: a pattern that waits for the next access is met; whether they read the word
that a pattern was put into once is told by no row: a free value. The answer is whether the packet is lost (R381, R400).
(DESIGN CHOICE: log entry 193.) -/
def State.lookupMeets (s : State) (region : Nat) : State × Bool :=
  if s.err.injections.any fun j => (decide (j.det = dTableCe) || decide (j.det = dTableUe)) && decide (j.inst = region) && j.due then
    let x := s.fresh
    let m := x.2.eccMeets dTableCe dTableUe dTableUe region (if x.1 % 2 = 0 then none else some (2 ^ 32))
    match m.2 with
    | none => (m.1, false)
    | some (n, a) => if n = 1 then (m.1.tableHit region a, false) else (m.1.tableLost region (word a), true)
  else (s, false)

end Sys2Proof.Machine
end

