-- ==== Sys2Proof/Machine/Ingress.lean ====
section
/-!
DEFINITION. The ingress decision (R125): the exact-match keys (R140), the source lookup and learning (R147 to R150), the
destination (R159 to R163), metering (R244 to R248), the host path (R317), mirror copies (R318) and sample copies (R316).
-/

namespace Sys2Proof.Machine

/-! ### Exact-match lookups -/

/-- A 48-bit address out of three containers. -/
def HdrVec.mac (v : HdrVec) (i : Nat) : Nat := v.c i * 2 ^ 32 + v.c (i + 1) * 2 ^ 16 + v.c (i + 2)

/-- The key of the destination lookup, or of the source lookup, by the profile's key type (R140). -/
def State.emKey (s : State) (p : Nat) (v : HdrVec) (src : Bool) : Option (BitVec 4 × BitVec 129) :=
  let f := tget s.tbl.emProfiles v.profile.toNat {}
  if f.kt = 2 then
    if src then none
    else
      some (2, BitVec.ofNat 129 (v.c f.a.toNat + v.c f.b.toNat * 2 ^ 16 + v.c f.c.toNat * 2 ^ 32 +
        v.c f.d.toNat * 2 ^ 48 + v.c f.e.toNat % 256 * 2 ^ 64))
  else if f.kt = 1 ∧ v.stateFlags.getLsbD 2 = true then
    some (1, BitVec.ofNat 129 (v.mac (if src then 36 else 33) + (v.c 31 * 256 + v.c 32 / 256) * 2 ^ 48))
  else
    let tagged := (v.slots.any fun h => decide (h.htype = 0x02)) && decide (v.c 7 % 4096 ≠ 0)
    let vid := if tagged then v.c 7 % 4096 else (s.port p).pvid.toNat
    some (0, BitVec.ofNat 129 (v.mac (if src then 3 else 0) + vid * 2 ^ 48))

/-- The region whose copy serves a region's lookups: its own, or the one it borrows (R174). -/
def State.copyRegion (s : State) (r : Nat) : Nat := (s.copyOf r).borrowFrom.getD r

/-- A lookup of a key for a region: the entry found, and HIT set in the copy that served it (R142). -/
def State.emLookup (s : State) (r : Nat) (kt : BitVec 4) (key : BitVec 129) : State × Option Ent :=
  match s.findEnt 0 kt key with
  | none => (s, none)
  | some (loc, e) =>
    (s.modEnt 0 loc fun x => { x with hit := x.hit ||| (1#4 <<< (s.copyRegion r)) }, some e)

/-! ### The source lookup (R147 to R150) -/

/-- A learn request joins its region's queue, or the request for the same key that waits there (R148). -/
def State.learnRequest (s : State) (r : Nat) (q : LearnReq) : State :=
  let c := s.copyOf r
  if c.learnQ.any fun x => decide (x.kt = q.kt) && decide (x.key = q.key) then
    s.setCopy r { c with learnQ := c.learnQ.map fun x => if x.kt = q.kt ∧ x.key = q.key then q else x }
  else if 4096 ≤ c.learnQ.length then s.learnDiscard
  else s.setCopy r { c with learnQ := c.learnQ ++ [q] }

/-- Whether the notify filter lets a key be reported now, with the filter that has noted it (R150). -/
def CopyState.notice (c : CopyState) (kt : BitVec 4) (key : BitVec 129) (beat hold : Nat) : CopyState × Bool :=
  if c.notify.any fun e => decide (e.1 = kt) && decide (e.2.1 = key) && decide (beat < e.2.2) then (c, false)
  else
    let l := (c.notify.filter fun e => !(decide (e.1 = kt) && decide (e.2.1 = key))) ++ [(kt, key, beat + hold)]
    ({ c with notify := l.drop (l.length - 4096) }, true)

/-- The source lookup of a packet and what it starts; the answer is whether LIMIT_ACTION lets it pass (R149).
(DEDUCED: log entry 54.) -/
def State.sourceLookup (s : State) (p : Nat) (v : HdrVec) : State × Bool :=
  let port := s.port p
  if port.learnMode = 0 then (s, true)
  else
    match s.emKey p v true with
    | none => (s, true)
    | some (kt, key) =>
      if key.getLsbD 40 then (s, true)
      else
        let r := laneRegion p
        let l := s.emLookup r kt key
        let s := l.1
        let c := s.copyOf r
        let n := c.notice kt key s.time.beatRun s.tbl.notifyHold.toNat
        match l.2 with
        | some e =>
          if e.ftype = 0 ∧ e.fid.toNat = p then (s, true)
          else if e.static ∨ e.ftype ≠ 0 then
            ({ s with tbl := { s.tbl with saConflict := s.tbl.saConflict.add 1 } }, true)
          else if port.learnMode = 1 then (s.learnRequest r { kt := kt, key := key, port := p }, true)
          else if n.2 then ((s.setCopy r n.1).macMove kt key e.fid.toNat p, true)
          else (s, true)
        | none =>
          let pass := !(port.atLimit && port.limitAct)
          if port.learnMode = 1 then
            (if port.atLimit then s.limitHit p else s.learnRequest r { kt := kt, key := key, port := p }, pass)
          else if n.2 then ((s.setCopy r n.1).raise 0 0x0401 (keyEvent kt key ++ [word p]) (some p), pass)
          else (s, pass)

/-! ### Destinations -/

/-- The longest-prefix lookup of a packet (R153): its family and direct index, and the hit. -/
def State.lpmLookup (s : State) (v : HdrVec) : Option (Nat × Option PrefixHit) :=
  if v.parseLimit then none
  else
    match v.ip with
    | none => none
    | some h =>
      let fam := if h.htype = 0x03 then 0 else 1
      let a := ((List.range (famWidth fam / 16)).map fun i => v.c (20 + i)).foldl (fun x y => x * 65536 + y) 0
      some (directIdx fam a, s.lpmFind fam a)

/-- The flow hash of R161. -/
def State.flowHash (s : State) (v : HdrVec) : BitVec 32 :=
  crcRun polyC s.tbl.ecmpSeed
    (((List.range 64).filter fun i => s.tbl.ecmpFields.getLsbD i).flatMap fun i => netBytes (v.c i) 2)

/-- The next hop of a group for a flow: the first valid slot, from the hashed one on, with its port in use (R161, R431). -/
def State.ecmpHop (s : State) (o : Obj) (f : BitVec 32) : Option Nat :=
  let i := f.toNat * o.size / 2 ^ 32
  ((List.range o.size).map fun j => o.base + (i + j) % o.size).findSome? fun slot =>
    let m := s.memberSeen (tget s.tbl.members slot {})
    let hop := tget? s.tbl.hops m.1.toNat
    match m.2, hop with
    | true, some h => if s.outOfUse h.port then none else some m.1.toNat
    | _, _ => none

/-- The length change that an edit record makes to a frame (R163). -/
def editDelta (ws : List Word) (frame : List Byte) : Int :=
  let et := netAt frame 12 2
  let tagged := et = 0x8100 ∨ et = 0x88A8
  (match editVlanOp ws with
    | 1 => 4
    | 2 => if tagged then 0 else 4
    | 3 => if tagged then -4 else 0
    | _ => 0) + if editVxlan ws then 50 else 0

/-- A packet with what a next hop resolves. -/
def State.viaHop (s : State) (k : Pkt) (hop : Nat) : Pkt :=
  match tget? s.tbl.hops hop with
  | none => k
  | some o =>
    let ed := o.edit?
    let ws := (ed.bind fun i => tget? s.tbl.edits i).map (·.words)
    { k with
        egress := some (s.protectPort o.port), edit := ed
        delta := (ws.map fun w => editDelta w k.data).getD 0
        objs := k.objs ++ [{ kind := 0, id := hop }] ++ (ed.toList.map fun i => { kind := 2, id := i }) }

/-- A destination resolved at step 4 (R160, R161, R432); none where no member of a group qualifies. -/
def State.resolve (s : State) (k : Pkt) (ftype fid : Nat) : Option Pkt :=
  if ftype = 0 then some { k with egress := some (s.protectPort fid) }
  else if ftype = 2 then some (s.viaHop k fid)
  else
    match tget? s.tbl.groups fid with
    | none => none
    | some o => (s.ecmpHop o k.flow).map fun h => s.viaHop { k with objs := k.objs ++ [{ kind := 1, id := fid }] } h

/-- The packet's TTL or hop limit. -/
def Pkt.ttl? (k : Pkt) : Option Nat :=
  k.hv.ip.map fun h => (byteAt k.data (h.offset + if h.htype = 0x03 then 8 else 7)).toNat

/-- The packet is for the host by R163: its edit lowers a TTL of 0 or 1. -/
def State.ttlTrap (s : State) (k : Pkt) : Bool :=
  match k.edit.bind (tget? s.tbl.edits ·), k.ttl? with
  | some o, some t => editTtlDec o.words && decide (t ≤ 1)
  | _, _ => false

/-! ### Metering -/

/-- The decision of Table 7-2 for a pre-colour: the colour, and what C and E lose. -/
def Meter.decide_ (m : Meter) (pre : Nat) (need : Int) : Nat × Bool × Bool :=
  let pre := if m.aware then pre else 0
  if pre = 2 then (2, false, false)
  else if m.mode = 2 then
    if m.tokE < need then (2, false, false)
    else if pre = 1 ∨ m.tokC < need then (1, false, true)
    else (0, true, true)
  else if pre = 0 ∧ need ≤ m.tokC then (0, true, false)
  else if need ≤ m.tokE then (1, false, true)
  else (2, false, false)

/-- The meter after a packet. -/
def Meter.take (m : Meter) (need : Int) (d : Nat × Bool × Bool) : Meter :=
  { m with
      tokC := if d.2.1 then m.tokC - need else m.tokC
      tokE := if d.2.2 then m.tokE - need else m.tokE
      green := if d.1 = 0 then m.green.add 1 else m.green
      yellow := if d.1 = 1 then m.yellow.add 1 else m.yellow
      red := if d.1 = 2 then m.red.add 1 else m.red }

/-- Meters a packet at a meter of its ingress region (R245 to R248); `len` is the metered length before LEN_ADJ.
(DEDUCED: log entry 60.) -/
def State.meterPacket (s : State) (k : Pkt) (idx len : Nat) : State × Pkt × Bool :=
  let r := k.inRegion
  if (s.meter r idx).mode = 0 then (s, k, false)
  else
    let s := s.stateMeets r [.meter idx]
    let m := s.meter r idx
    let need : Int := ((len : Int) + signed 7 m.lenAdj.toNat) * byteUnit
    let d := m.decide_ k.colour.toNat need
    (s.setMeter r idx (m.take need d),
      { k with
          colour := BitVec.ofNat 2 d.1, meter := some (r, idx, d.2.1, d.2.2), meterLen := len
          meterCharge := (len : Int) + signed 7 m.lenAdj.toNat },
      decide (d.1 = 2) && !m.redMark)

/-- Adds bytes to the buckets that a packet charged, up to their sizes (R246). -/
def State.meterBack (s : State) (k : Pkt) (bytes : Int) : State :=
  match k.meter with
  | none => s
  | some (r, i, c, e) =>
    let m := s.meter r i
    let add (on : Bool) (t : Int) (size : Nat) : Int := if on then min ((size : Int) * byteUnit) (t + bytes * byteUnit) else t
    s.setMeter r i { m with tokC := add c m.tokC m.cbs.toNat, tokE := add e m.tokE m.ebs.toNat }

/-! ### The host path (R317, R359) -/

/-- The function that a host code is assigned to. -/
def State.codeFn (s : State) (code : Nat) : Nat := (tget s.cif.codeMap code 0).toNat

/-- Bytes of a function's share of the host path that are taken. -/
def State.hostUsed (s : State) (fn : Nat) : Nat :=
  ((tget s.tally.hostPath fn []).map fun u => u.pkt.len).foldl (· + ·) 0

/-- The bytes of sample units that wait for the ring. -/
def State.sampleWaiting (s : State) : Nat :=
  ((s.tally.units.filter fun u => decide (u.stream = 4)).map fun u => 4 * u.words.length).foldl (· + ·) 0

/-- Bytes of a function's 4 MiB of the host path that are taken: by its packets, and by sample units where it owns their ring.
(DEDUCED: log entry 65.) -/
def State.hostTaken (s : State) (fn : Nat) : Nat :=
  s.hostUsed fn + if (tget s.tally.rings 4 {}).fn = fn then s.sampleWaiting else 0

/-- The host path has room for `len` bytes of a function with an enabled receive ring. -/
def State.hostRoom (s : State) (fn len : Nat) : Bool :=
  (s.func fn).hostRx.en && decide (s.hostTaken fn + len ≤ 4194304)

/-- Puts a packet into the host path of its code's function. -/
def State.enterHost (s : State) (k : Pkt) (code reason : Nat) (trap : Bool) : State :=
  let fn := s.codeFn code
  { s with tally := { s.tally with
      hostPath := tins s.tally.hostPath fn
        (tget s.tally.hostPath fn [] ++
          [{ pkt := k, code := BitVec.ofNat 8 code, trap := trap, reason := BitVec.ofNat 8 reason }]) } }

/-- A packet goes to the host in place of forwarding: TO_HOST with its reason, or DROPPED with HOST_PATH_FULL, against
its egress port where that was fixed before the trap (R163, R295). -/
def State.toHost (s : State) (k : Pkt) (code reason : Nat) : State :=
  if s.hostRoom (s.codeFn code) k.len then
    (s.enterHost k code reason true).fold k.inRegion k .toHost reason egressNone k.len
  else s.dropInAt k rsHostPathFull

/-- A host copy of a packet. -/
def State.hostCopy (s : State) (k : Pkt) (code : Nat) : State :=
  let c : Pkt := { k with id := s.nextPkt, copy := 17, egress := none, edit := none, delta := 0, meter := none }
  let s := { s with nextPkt := s.nextPkt + 1 }
  if s.hostRoom (s.codeFn code) c.len then
    (s.enterHost c code rsNone false).fold k.inRegion c .copyDelivered rsNone egressNone c.len
  else s.fold k.inRegion c .copyDropped rsHostPathFull egressNone c.len

/-! ### Sample copies (R316) -/

/-- What a sample unit says of its frame beyond the packet. -/
structure Sampled where
  len     : Nat
  egress  : Nat := 0x400
  reason  : Nat := 0
  oversize : Bool := false
  fcsBad  : Bool := false
  runt    : Bool := false
  dropped : Bool := false
  deriving DecidableEq, Repr

/-- The metadata of Table 9-11 and the captured bytes. -/
def sampleWords (k : Pkt) (x : Sample) (d : Sampled) (full : List Byte) : List Word :=
  let cap := full.take (min d.len 256)
  let w0 := pack [(0, k.ingress.getD 0), (10, k.cls.toNat), (14, k.qidx.toNat), (18, d.egress)]
  let w1 := pack [(0, d.len), (15, cap.length), (24, d.reason)]
  let w2 := word (bitsOf [d.oversize, d.fcsBad, d.runt, k.hv.parseLimit, k.hv.trailing, d.dropped, x.random])
  [w0, w1, w2, x.frameNo, word k.stampNs, word k.stampFrac.toNat, 0, 0] ++
    bytesToWords cap (8 * ceilDiv cap.length 32)

/-- Writes the sample copy of a selected frame once its ingress decision is made; `fcs` are the frame's last four bytes
as the device knows them. -/
def State.sampleCopy (s : State) (k : Pkt) (d : Sampled) (fcs : List Byte) : State :=
  match k.sample with
  | none => s
  | some x =>
    let fn := (tget s.tally.rings 4 {}).fn
    let cap := min d.len 256
    let c : Pkt := { k with id := s.nextPkt, copy := 18 }
    let s := { s with nextPkt := s.nextPkt + 1 }
    if s.hostTaken fn + cap ≤ 4194304 then
      (s.addUnit 4 (1 + k.inRegion) (s.lossyHead 1) (sampleWords k x d (k.data ++ fcs))).fold k.inRegion c .copyDelivered
        rsNone egressNone cap
    else s.fold k.inRegion c .copyDropped rsHostPathFull egressNone cap

/-- The CRC-32 of IEEE 802.3 over a frame's bytes, as its four FCS bytes. (DESIGN CHOICE: log entry 64.) -/
def fcsBytes (bs : List Byte) : List Byte := bytesOf (~~~ bs.foldl (crcFeed polyE) 0xFFFFFFFF#32).toNat 4

/-! ### The decision -/

/-- The packet cannot reach its egress port's die: that die is stopped, or the link is down (R33, R389). -/
def State.noCrossing (s : State) (k : Pkt) : Bool :=
  let e := k.egress.getD 0 / 512
  s.dieStopped e || (s.err.linkDown.isSome && decide (e ≠ k.ingress.getD 0 / 512))

/-- The decision on a packet before its copies are made and its disposition falls. -/
structure Verdict where
  pkt    : Pkt
  /-- 0 forward, 1 drop, 2 to the host. -/
  act    : Nat
  reason : Nat := 0
  code   : Nat := 0
  copy   : Option Nat := none
  mirror : Option Nat := none
  deriving DecidableEq, Repr

/-- The meter, the port state of a group and the peer die: what follows step 6 of R125. (DEDUCED: log entry 59.) -/
def State.decideLate (s : State) (v : Verdict) (rule : Option Rule) (ftype fid len : Nat) : State × Verdict :=
  let found := s.resolve v.pkt ftype fid
  let k := found.getD v.pkt
  if s.ttlTrap k then (s, { v with pkt := k, act := 2, code := 0xF0 })
  else
    let m := match rule with
      | some r => if bit r.act0 31 then s.meterPacket k (fld r.act1 0 16) len else (s, k, false)
      | none => (s, k, false)
    let v := { v with pkt := m.2.1 }
    if m.2.2 then (m.1, { v with act := 1, reason := rsPolicerRed })
    else if found.isNone then (m.1, { v with act := 1, reason := rsPortDown })
    else if s.noCrossing k then (m.1, { v with act := 1, reason := rsPeerDieDown })
    else (m.1, { v with act := 0 })

/-- The lookups and the disposition of a parsed packet in the order of R125; `len` is the metered length.
(DEDUCED: log entry 53.) -/
def State.decide_ (s : State) (p : Nat) (k : Pkt) (len : Nat) : State × Verdict :=
  let port := s.port p
  let hv := k.hv
  let k := { k with cls := port.defClass, qidx := port.defQueue, colour := 0, flow := s.flowHash hv }
  let key := (s.emKey p hv false).getD (0, 0)
  let bk := (s.buckets 0 key.1 key.2).1
  let em := s.emLookup (laneRegion p) key.1 key.2
  let sl := em.1.sourceLookup p hv
  let s := sl.1
  let lpm := s.lpmLookup hv
  let perfEm (s : State) (cls : Nat) : State :=
    let s := s.perf { event := 0x020, addr := some bk, cls := some cls }
    if em.2.isSome then s.perf { event := 0x021, addr := some bk, cls := some cls } else s
  if hv.parseLimit ∧ port.plAction = 1 then
    (perfEm s k.cls.toNat, { pkt := { k with cls := 0 }, act := 1, reason := rsParseLimit })
  else if hv.parseLimit ∧ port.plAction = 2 then
    (perfEm s k.cls.toNat, { pkt := k, act := 2, reason := rsParseLimit, code := 0xF4 })
  else
    let cr := s.classRegion (laneRegion p)
    let hit := lpm.bind (·.2)
    let ck := cr.key p hv { em := em.2.map (·.cls.toNat), lpm := hit.map fun h => fld h.result 20 12 }
    let win := cr.winner ck
    let rule := win.map (·.2)
    let s := match win with
      | some (i, r) =>
        s.setClassRegion (laneRegion p) { cr with rules := tins cr.rules i { r with hits := r.hits.add 1 } }
      | none => s
    let a0 := (rule.map (·.act0)).getD 0
    let k : Pkt :=
      { k with
          cls := if bit a0 0 then BitVec.ofNat 4 (fld a0 1 4) else k.cls
          colour := if bit a0 5 then BitVec.ofNat 2 (fld a0 6 2) else k.colour
          qidx := if bit a0 8 then BitVec.ofNat 4 (fld a0 9 4) else k.qidx }
    let cls := k.cls.toNat
    let s := perfEm s cls
    let s := match lpm with
      | some (d, h) =>
        let s := s.perf { event := 0x022, addr := some d, cls := some cls }
        if h.isSome then s.perf { event := 0x023, addr := some d, cls := some cls } else s
      | none => s
    let s := match win with
      | some (i, _) => s.perf { event := 0x024, addr := some i, cls := some cls }
      | none => s
    let host := fld a0 16 2
    let fwd := fld a0 13 2
    let v : Verdict :=
      { pkt := k, act := 1, code := fld a0 18 8
        copy := if host = 1 then some (fld a0 18 8) else none
        mirror := if bit a0 26 then some (fld a0 27 4) else none }
    let dest : Option (Nat × Nat) :=
      match em.2 with
      | some e =>
        if e.route then hit.map fun h => (fld h.result 0 2, fld h.result 2 18) else some (e.ftype.toNat, e.fid.toNat)
      | none => none
    if fwd = 2 then (s, { v with reason := rsAclDeny })
    else if host = 2 then (s, { v with act := 2 })
    else if fwd = 1 then
      let a2 := (rule.map (·.act2)).getD 0
      s.decideLate v rule (fld a2 0 2) (fld a2 2 20) len
    else if sl.2 = false then (s, { v with reason := rsLearnLimit })
    else
      match dest with
      | some (t, i) => s.decideLate v rule t i len
      | none =>
        if em.2.isNone ∧ port.missAct then (s, { v with act := 2, code := 0xF1 })
        else (s, { v with reason := rsNoRoute })

/-- A packet's egress port lies on the other die than its ingress port. -/
def Pkt.crosses (k : Pkt) : Bool :=
  match k.ingress, k.egress with
  | some p, some e => decide (e / 512 ≠ p / 512)
  | _, _ => false

/-- The flits of `len` bytes that cross between the dies, each over a channel of its direction that the spec leaves open
(Table 1-7: 2,000 payload bits; R309). (DEDUCED: log entry 180.) -/
def State.flits (s : State) (k : Pkt) (len : Nat) : State :=
  if k.crosses then
    let x := s.fresh
    let side := if k.ingress.getD 0 < 512 then 0 else 32
    (List.range (ceilDiv (8 * len) 2000)).foldl
      (fun t i => t.perf { event := 0x040, addr := some (side + x.1 / 32 ^ i % 32) }) x.2
  else s

/-- A packet crosses with its frame at hand; the rest of one in reception crosses by its end. -/
def State.flitsOf (s : State) (k : Pkt) : State := if k.known then s.flits k k.len else s

/-- The mirror copy of a packet, to be admitted as a packet of its own (R188, R318). (DEDUCED: log entries 57, 61.) -/
def State.mirrorCopy (s : State) (v : Verdict) : State :=
  match v.mirror with
  | none => s
  | some n =>
    let m := tget s.tally.mirrors n {}
    if m.enable = false then s
    else
      let k := v.pkt
      let t := if m.truncEn then some m.truncLen.toNat else none
      let c : Pkt :=
        { k with
            id := s.nextPkt, copy := 1 + n, egress := some m.port.toNat, qidx := m.queue, edit := none, delta := 0
            meter := none, trunc := t, sample := none
            len := match t with | some x => min k.len x | none => k.len }
      let s := { s with nextPkt := s.nextPkt + 1 }
      if s.noCrossing c then s.dropInAt c rsPortDown
      else
        let s := s.flitsOf c
        { s with arrivals := s.arrivals ++ [c] }

/-- A packet whose egress port lies on the other die is counted as held there (R296); a frame in reception counts no bytes yet. -/
def State.cross (s : State) (k : Pkt) : State :=
  if k.crosses ∧ k.copy = 0 then
    s.modPort (k.ingress.getD 0) fun v =>
      { v with crossPkts := v.crossPkts + 1, crossBytes := v.crossBytes + if k.known then k.len else 0 }
  else s

/-- A forwarded packet is granted its crossing and reaches admission (R296). -/
def State.toAdmission (s : State) (k : Pkt) : State :=
  let s := (s.cross k).flitsOf k
  { s with arrivals := s.arrivals ++ [k] }

/-- The disposition of a packet that does not go on to admission, and its host copy; the answer is the decision as it fell: a trapped
packet that finds the host path full is dropped. -/
def State.settle (s : State) (w : Wait) : State × Wait :=
  let s := match w.copy with | some code => s.hostCopy w.pkt code | none => s
  if w.act = 1 then
    (if w.far then (s.cross w.pkt).dropOut w.pkt w.reason
    else if w.pkt.egress.isSome then s.dropInAt w.pkt w.reason
    else s.dropIn w.pkt w.reason, w)
  else if w.act = 2 then
    (s.toHost w.pkt w.code w.reason,
      if s.hostRoom (s.codeFn w.code) w.pkt.len then w else { w with act := 1, reason := rsHostPathFull })
  else (s, w)

/-- The sample copy's view of a decision. -/
def Wait.sampled (w : Wait) (len : Nat) : Sampled :=
  { len := len, egress := w.pkt.egress.getD egressNone, reason := if w.act = 1 then w.reason else 0
    dropped := decide (w.act = 1) }

/-- The sample copy of a decided frame that ended well. -/
def State.sampleDecided (s : State) (w : Wait) : State :=
  s.sampleCopy w.pkt (w.sampled w.pkt.len) (fcsBytes w.pkt.data)

/-- A packet with its header vector is decided: mirror copy and crossing at once, the rest at the frame's end. -/
def State.decidePkt (s : State) (p : Nat) (k : Pkt) (len : Nat) : State × Wait :=
  let d := s.decide_ p k len
  let v := d.2
  let s := d.1.mirrorCopy v
  let s := if v.act = 0 then s.toAdmission v.pkt else s
  (s, { pkt := v.pkt, act := v.act, reason := v.reason, code := v.code, copy := v.copy })

/-- The parse and the decision of a frame that has ended. -/
def State.ingressEnded (s : State) (p : Nat) (k : Pkt) : State :=
  let e0 := k.len - 4
  let r := s.parseFrame p { bytes := k.data, e0 := some e0 }
  if r.2 then
    let w : Wait := { pkt := { k with hv := r.1 }, act := 1, reason := rsLength }
    let d := (s.mismatchStats p r.1).settle w
    d.1.sampleDecided d.2
  else
    let hv := r.1.withTrail e0
    let s := (s.parseStats p hv).trailStats p hv.trailLen
    let d := s.decidePkt p { k with hv := hv } k.len
    let e := d.1.settle d.2
    e.1.sampleDecided e.2

/-- The parse and the decision of a frame whose first bytes alone are present (R105, R187). (DEDUCED: log entry 55.) -/
def State.ingressEarly (s : State) (p : Nat) (x : Rx) (present : List Byte) : State :=
  let r := s.parseFrame p { bytes := present.take 768, e0 := none }
  let k : Pkt :=
    { id := x.pktId, root := x.pktId, ingress := some p, len := x.maxFrame, known := false, data := present
      stampNs := x.stampNs, stampFrac := x.stampFrac, stepSum := x.stepSum, sample := x.sample
      hv := r.1 }
  let keep (s : State) (w : Wait) : State := s.modPort p fun v => { v with rx := some { x with wait := some w } }
  if r.2 then keep (s.mismatchStats p r.1) { pkt := k, act := 1, reason := rsLength }
  else
    let hv := { r.1 with trailing := decide (0 < r.1.trail present.length) }
    let len := match hv.outerClaim with | some c => c + 4 | none => x.maxFrame
    let d := (s.parseStats p hv).decidePkt p { k with hv := hv } len
    keep d.1 d.2

/-- The receive side of a port's cluster is fenced: its port blocks dispatch nothing (R384). -/
def State.rxFenced (s : State) (p : Nat) : Bool := thas s.err.fences (2 * laneCluster p)

/-- A frame of R410 that the device consumes (R411). -/
def State.isRiwen (s : State) (p : Nat) (data : List Byte) : Bool :=
  (s.port p).riwenEn && s.hasRole && decide (netAt data 0 6 = 0x034C4E000000) && decide (netAt data 12 2 = 0x88B5)

/-- A frame that ends at the MAC: a MAC control frame, or a Riwen frame. -/
def State.forMac (s : State) (p : Nat) (data : List Byte) : Bool :=
  decide (netAt data 12 2 = 0x8808) || s.isRiwen p data

/-- Lookups that a region has made in the ns of now. -/
def State.lookups (s : State) (r : Nat) : Nat :=
  let c := s.copyOf r
  if c.lookNs = s.time.ns then c.lookCount else 0

/-- A region takes its lookup share: while one copy serves two regions it makes 120 lookups in a ns, and 60 for each of them at
least (R387). The answer is whether the share had room. (DESIGN CHOICE: log entry 162.) -/
def State.takeShare (s : State) (r : Nat) : State × Bool :=
  let served := (List.range 4).filter fun x => decide (s.copyRegion x = s.copyRegion r)
  if served.length ≤ 1 then (s, true)
  else if 60 ≤ s.lookups r ∧ 120 ≤ (served.map s.lookups).foldl (· + ·) 0 then (s, false)
  else (s.setCopy r { s.copyOf r with lookNs := s.time.ns, lookCount := s.lookups r + 1 }, true)

/-- A frame whose delimiter crossed before that of `id` on the same port block has not been dispatched yet (R23): one that waits for
its parse, or one in reception that may still go there. -/
def State.blockedBy (s : State) (p id : Nat) : Bool :=
  (s.parseQ.any fun k => match k.ingress with | some x => decide (laneBlock x = laneBlock p) && decide (k.id < id) | none => false) ||
  s.ports.any fun e =>
    decide (laneBlock e.1 = laneBlock p) &&
      match e.2.rx with
      | some x => decide (x.pktId < id) && x.wait.isNone && !x.discard
      | none => false

/-- A packet whose lookup read the word is dropped: one that waits for its parse, or a frame in reception at its end. -/
def State.dropLookup (s : State) (pkt : Option Nat) : State :=
  match pkt with
  | none => s
  | some id =>
    match s.parseQ.find? fun k => decide (k.id = id) with
    | some k => (({ s with parseQ := s.parseQ.erase k }).dropIn k rsTableUncorrected).sampleCopy k
        { len := k.len, reason := rsTableUncorrected, dropped := true } (fcsBytes k.data)
    | none =>
      match s.ports.find? fun e => match e.2.rx with | some x => decide (x.pktId = id) && x.wait.isNone | none => false with
      | none => s
      | some (p, _) =>
        s.modPort p fun v =>
          { v with
              rx := v.rx.map fun x =>
                { x with
                    wait := some
                      { pkt := { id := x.pktId, root := x.pktId, ingress := some p, known := false, len := x.maxFrame
                                 stampNs := x.stampNs, stampFrac := x.stampFrac, stepSum := x.stepSum, sample := x.sample }
                        act := 1, reason := rsTableUncorrected } } }

/-! ### Cluster recovery (R384) -/

/-- The ports of a cluster. -/
def State.clusterPorts (s : State) (k : Nat) : List Nat := (tkeys s.ports).filter fun p => laneCluster p = k

/-- The packets inside the receive side's pipelines: those that wait for their parse, and the frames in reception whose parse has
begun, which are discarded at their end. -/
def State.flushRx (s : State) (k : Nat) : State × Nat :=
  let mine (x : Pkt) : Bool := match x.ingress with | some p => decide (laneCluster p = k) | none => false
  let lost := s.parseQ.filter mine
  let s := lost.foldl
    (fun t x => (t.dropIn x rsFaultDiscard).sampleCopy x { len := x.len, reason := rsFaultDiscard, dropped := true } (fcsBytes x.data))
    { s with parseQ := s.parseQ.filter fun x => !mine x }
  ((s.clusterPorts k).foldl
    (fun t p => t.modPort p fun v =>
      { v with rx := v.rx.map fun x => if x.wait.isSome then { x with discard := true } else x }) s, lost.length)

/-- Every frame in transmission on the transmit side is stomped. -/
def State.flushTx (s : State) (k : Nat) : State × Nat :=
  let busy := (s.clusterPorts k).filter fun p => (s.port p).tx.isSome
  (busy.foldl
    (fun t p =>
      t.modPort p fun v =>
        { v with tx := v.tx.map fun x =>
            if x.stomp.isSome ∨ x.pkt.badEnd.isSome then x
            else { x with pkt := { x.pkt with badEnd := some (BitVec.ofNat 8 rsFaultDiscard) } } }) s, busy.length)

/-- A cluster state or parity error at an address: the side is fenced until FENCE_LIFT. A cluster that has failed is not recovered
again. -/
def State.recoverCluster (s : State) (cluster : Nat) (egress parity : Bool) (addr : Nat) : State :=
    let side := b2n egress
    let det := if parity then dPipeParity else dClusterState
    let inst := if parity then 2 * cluster + side else cluster
    let m := s.mark det inst addr
    let s := s.detect det inst addr true
    if thas s.err.failedClusters cluster then s.logNow det inst addr 0 0 true m.injected
    else
      let x := if egress then s.flushTx cluster else s.flushRx cluster
      let key := 2 * cluster + side
      match tget? x.1.err.fences key with
      | some g =>
        -- a detection on a side that is fenced already: its own record, within the recovery that runs
        let t := { x.1 with err := { x.1.err with fences := tins x.1.err.fences key { g with discarded := g.discarded + x.2 } } }
        t.logNow det inst addr 2 x.2 true m.injected
      | none => { x.1 with err := { x.1.err with fences := tins x.1.err.fences key { mark := m, discarded := x.2 } } }

/-- The words of a cluster's state are read as one of its ports begins to parse: the answer is whether a pattern that waits there was
met, with the recovery begun (R384, R400). -/
def State.clusterMeets (s : State) (p : Nat) : State × Bool :=
  match s.unitMeets dClusterState (laneCluster p) with
  | (t, none) => (t, false)
  | (t, some a) => (t.recoverCluster (laneCluster p) false false a, true)

/-- Parsing begins: of a frame that has ended, or of one with at least its first 768 bytes present (R105). -/
def execParseStart (pkt : Nat) (present : List Byte) (s : State) : Res :=
  .next
    (match s.parseQ.find? fun k => decide (k.id = pkt) with
      | some k =>
        match k.ingress with
        | some p =>
          if s.rxFenced p = true ∨ s.blockedBy p pkt = true then s
          else
            let c := s.clusterMeets p
            if c.2 then c.1 else
            let s := c.1
            let m := s.lookupMeets (s.copyRegion (laneRegion p))
            let x := ({ m.1 with parseQ := m.1.parseQ.erase k }).takeShare (laneRegion p)
            if x.2 = true ∧ m.2 = true then m.1.dropLookup (some pkt)
            else if x.2 then x.1.ingressEnded p k
            else
              (x.1.dropIn k rsFaultDiscard).sampleCopy k { len := k.len, reason := rsFaultDiscard, dropped := true } (fcsBytes k.data)
        | none => s
      | none =>
        match s.ports.find? fun e => match e.2.rx with | some x => decide (x.pktId = pkt) | none => false with
        | some (p, v) =>
          match v.rx with
          | some x =>
            if x.wait.isNone ∧ x.discard = false ∧ s.rxFenced p = false ∧ s.blockedBy p pkt = false ∧ 768 ≤ present.length ∧
                s.forMac p present = false then
              let c := s.clusterMeets p
              if c.2 then c.1.modPort p fun v => { v with rx := v.rx.map fun x => { x with discard := true } } else
              let s := c.1
              let m := s.lookupMeets (s.copyRegion (laneRegion p))
              let y := m.1.takeShare (laneRegion p)
              if y.2 = true ∧ m.2 = true then m.1.dropLookup (some pkt)
              else if y.2 then y.1.ingressEarly p x present
              else y.1.modPort p fun v => { v with rx := some { x with discard := true } }
            else s
          | none => s
        | none => s)

end Sys2Proof.Machine
end

