-- ==== Sys2Proof/Machine/Receive.lean ====
section
/-!
DEFINITION. Reception: the start and the end of a frame at a port (R73 to R80, R90, R105, R114, R187).
-/

namespace Sys2Proof.Machine

/-! ### The start of a frame -/

/-- The polynomial's LFSR after one frame, and whether the frame is selected (R316). (DESIGN CHOICE: log entry 77.) -/
def State.sampleSelect (s : State) (p : Nat) : State × Option Sample :=
  let v := s.port p
  if v.sampleEn = false then (s, none)
  else
    let n := v.nMinus1.toNat + 1
    let g := s.region (laneRegion p)
    let l := lfsrRun 1 g.sampleLfsr
    let s := s.modPort p fun v => { v with frameNo := v.frameNo + 1 }
    if v.sampleRnd then
      let s := s.setRegion (laneRegion p) { g with sampleLfsr := l }
      (s, if l.toNat % 2 ^ 24 * n < 2 ^ 24 then some { frameNo := v.frameNo, random := true } else none)
    else
      (s, if v.frameNo.toNat % n = n - 1 then some { frameNo := v.frameNo, random := false } else none)

/-- The receive clock of the port's chiplet is stopped for a switch to its standby PLL (R394). -/
def State.rxStopped (s : State) (p : Nat) : Bool := decide (s.time.runNs < tget s.pwr.rxStop (laneChiplet p) 0)

/-- A frame whose delimiter crosses now is discarded: the receive side is fenced (R384), or its receive clock stopped. -/
def State.rxLost (s : State) (p : Nat) : Bool := s.rxFenced p || s.rxStopped p

/-- A good frame that a receive fence has taken away counts in its recovery, where it ends before that does (R384).
(DEDUCED: log entry 133.) -/
def State.fenceCount (s : State) (p : Nat) : State :=
  { s with err := { s.err with
      fences := tmod s.err.fences (2 * laneCluster p) fun f => { f with discarded := f.discarded + 1 } } }

/-- A start-of-frame delimiter crosses the plane of a port in UP: a received packet (R76, R78, R23).
(DEDUCED: log entry 46.) -/
def execRxFrameStart (port : Nat) (s : State) : Res :=
  onNum (decide (port < 1024))
    (match s.port? port with
      | none => s
      | some v =>
        if v.state ≠ .up ∨ v.rx.isSome then s
        else
          let st := s.stamp v.rxAdj
          let x := s.sampleSelect port
          let s := x.1
          let b := laneBlock port
          let s := s.modRegion (laneRegion port) fun g => { g with dispatch := tset g.dispatch b false (!(tget g.dispatch b false)) }
          let s := s.modPort port fun v =>
            { v with
                received := v.received + 1
                rx := some
                  { pktId := s.nextPkt, stampNs := st.1, stampFrac := st.2, stepSum := s.time.stepSum
                    maxFrame := v.maxFrame.toNat, sample := x.2, discard := s.rxLost port, clkStopped := s.rxStopped port } }
          (({ s with nextPkt := s.nextPkt + 1 }).perf { event := 0x030, addr := some port }).rateAdd port 0 1)

/-! ### Where a packet is -/

/-- Where a packet and its copies stand. -/
inductive Place where
  | arrival
  | granary (q : Nat)
  | glacier (q : Nat)
  /-- Cut off with its segment in the glacier of a die, until the pool audit finds its block. -/
  | orphan (die : Nat)
  | sending (p : Nat)
  deriving DecidableEq, Repr

/-- The copies of an original and itself, with their places. -/
def State.family (s : State) (root : Nat) : List (Place × Pkt) :=
  let pick (pl : Place) (l : List Pkt) := (l.filter fun k => decide (k.root = root)).map fun k => (pl, k)
  pick .arrival s.arrivals ++
    (s.queues.flatMap fun e => pick (.granary e.1) e.2.granary ++ pick (.glacier e.1) e.2.glacier) ++
    (s.glaciers.flatMap fun e => pick (.orphan e.1) e.2.orphans) ++
    s.ports.flatMap fun e => match e.2.tx with | some x => pick (.sending e.1) [x.pkt] | none => []

/-- Rewrites a packet where it stands. -/
def State.putPkt (s : State) (pl : Place) (k : Pkt) : State :=
  let sub (l : List Pkt) : List Pkt := l.map fun x => if x.id = k.id then k else x
  match pl with
  | .arrival => { s with arrivals := sub s.arrivals }
  | .granary q => s.modQueue q fun v => { v with granary := sub v.granary }
  | .glacier q => s.modQueue q fun v => { v with glacier := sub v.glacier }
  | .orphan d => s.modGlacier d fun g => { g with orphans := sub g.orphans }
  | .sending p => s.modPort p fun v => { v with tx := v.tx.map fun x => { x with pkt := k } }

/-- A spill ends when no packet of the glacier segment is left (R204). -/
def State.endSpill (s : State) (q : Nat) : State :=
  s.modQueue q fun v => if v.glacier.isEmpty then { v with spilling := false } else v

/-- Takes a packet out of its list, without its cells; a packet in transmission stays. -/
def State.pullPkt (s : State) (pl : Place) (k : Pkt) : State :=
  let cut (l : List Pkt) : List Pkt := l.filter fun x => decide (x.id ≠ k.id)
  match pl with
  | .arrival => { s with arrivals := cut s.arrivals }
  | .granary q => (s.modQueue q fun v => { v with granary := cut v.granary }).tagHead q (s.headId q)
  | .glacier q => (s.modQueue q fun v => { v with glacier := cut v.glacier }).endSpill q
  | .orphan d => s.modGlacier d fun g => { g with orphans := cut g.orphans }
  | .sending _ => s

/-- Takes a packet out with everything it holds. -/
def State.removePkt (s : State) (pl : Place) (k : Pkt) : State :=
  match pl with
  | .granary q => (s.pullPkt pl k).freePkt q k
  | .glacier q => (s.pullPkt pl k).freePkt q k
  | .orphan _ => (s.pullPkt pl k).freePkt k.queueNo k
  | _ => s.pullPkt pl k

/-- The packet is not held on the other die any more, though no disposition of the other die says so (R296). -/
def State.uncross (s : State) (k : Pkt) : State :=
  if k.crosses ∧ k.copy = 0 then
    s.modPort (k.ingress.getD 0) fun v =>
      { v with crossPkts := v.crossPkts - 1, crossBytes := v.crossBytes - if k.known then k.len else 0 }
  else s

/-- A frame in reception has ended at `len` bytes: it has crossed whole, and counts with its bytes. -/
def State.recross (s : State) (k : Pkt) (len : Nat) : State :=
  let s := s.flits k len
  if k.crosses ∧ k.copy = 0 then s.modPort (k.ingress.getD 0) fun v => { v with crossBytes := v.crossBytes + len } else s

/-! ### The end of a frame that is already on its way -/

/-- The queue whose cells a packet in this place holds. -/
def Place.cellQueue (pl : Place) (k : Pkt) : Option Nat :=
  match pl with
  | .granary q => some q
  | .sending p => some (16 * p + k.qidx.toNat)
  | _ => none

/-- The packet stands where it stood, with its frame ended at `len` bytes: the cells beyond them return in the reverse order of
charging (R187), and the rest of its cells are drawn (R186). -/
def State.endPut (s : State) (pl : Place) (len : Nat) (k : Pkt) : State :=
  match pl.cellQueue k with
  | none => s.putPkt pl k
  | some q =>
    let back := k.charge.giveBack (k.charge.total - cellsOf len)
    let x := s.drawCells (queueRegion q) k.cells (cellsOf len - k.cells.length)
    (x.1.putPkt pl { k with charge := k.charge.minus back, cells := x.2 }).freeCells q k back

/-- The frame of a packet that waits for the pool audit has ended: the audit tallies it with its bytes. -/
def State.endOrphan (s : State) (pl : Place) (len : Nat) (k : Pkt) (data : List Byte) : State :=
  (s.recross k len).putPkt pl { k with known := true, len := len, data := data.take (len - 4) }

/-- The frame ended bad, a longer one cut at MAX_FRAME with the stomped FCS included: the original is dropped where it has not begun
to leave; what has begun, and a mirror copy, is to end stomped (R75, R95). (DEDUCED, DESIGN CHOICE: log entries 56, 165.) -/
def State.endBad (s : State) (len maxFrame reason : Nat) (data : List Byte) (e : Place × Pkt) : State :=
  let k := e.2
  let cut := min len maxFrame
  let newLen := match k.trunc with | some t => min t cut | none => cut
  let tally := if k.copy = 0 then min len 16384 else newLen
  let sendBad : Pkt :=
    { k with known := true, badEnd := some (BitVec.ofNat 8 reason), len := tally, data := data.take (newLen - 4) }
  if let .orphan _ := e.1 then s.endOrphan e.1 tally k data
  else if k.copy = 0 then
    match e.1 with
    | .sending _ => (s.recross k tally).endPut e.1 newLen sendBad
    | _ =>
      ((s.removePkt e.1 k).uncross k).dropIn { k with len := min len 16384, cls := 0 } reason
  else if k.trunc.isSome ∧ newLen < len ∧ len ≤ maxFrame then
    (s.recross k newLen).endPut e.1 newLen { k with known := true, len := newLen, data := data.take (newLen - 4) }
  else (s.recross k newLen).endPut e.1 newLen sendBad

/-- The lengths contradicted at the frame's end: the packet and its mirror copies are dropped in their egress regions before any copy
of it is scheduled (R114). (DEDUCED, DESIGN CHOICE: log entries 58, 187.) -/
def State.endMismatch (s : State) (len : Nat) (e : Place × Pkt) : State :=
  let k := e.2
  let newLen := match k.trunc with | some t => min t len | none => len
  if let .orphan _ := e.1 then s.endOrphan e.1 newLen k k.data
  else
    let r := ((s.removePkt e.1 k).recross k newLen).dropReason k rsLength
    r.2.fold (laneRegion (k.egress.getD 0)) { k with len := newLen, known := true } k.dropDisp r.1
      (if k.copy = 0 then egressNone else k.egress.getD egressNone) newLen

/-- The frame ended well: excess cells return in the reverse order of charging, and the egress length test is made
(R77, R187). -/
def State.endGood (s : State) (len : Nat) (data : List Byte) (hv : HdrVec) (e : Place × Pkt) : State :=
  let k := e.2
  let newLen := match k.trunc with | some t => min t len | none => len
  let s := s.recross k newLen
  let k' : Pkt := { k with known := true, len := newLen, data := data.take (newLen - 4), hv := hv }
  let drop (s : State) (q : Nat) : State :=
    match (s.family k.root).find? fun x => decide (x.2.id = k.id) with
    | some x =>
      let r := (((s.pullPkt x.1 x.2).freePkt q x.2).mac (queuePort q) 68).dropReason x.2 rsOversize
      r.2.dropOut x.2 r.1
    | none => s
  let long (q : Nat) : Bool := decide ((s.port (queuePort q)).maxFrame.toNat < k'.edited)
  match e.1 with
  | .granary q => let s := s.endPut e.1 newLen k'; if long q then drop s q else s
  | .glacier q => let s := s.putPkt e.1 k'; if long q then drop s q else s
  | .sending p =>
    -- no frame longer than MAX_FRAME leaves (R77)
    let tooLong := match (s.port p).tx with | some x => decide (x.maxFrame < k'.edited) | none => false
    s.endPut e.1 newLen { k' with badEnd := if tooLong && k.badEnd.isNone then some (BitVec.ofNat 8 rsOversize) else k.badEnd }
  | .arrival => s.putPkt e.1 k'
  | .orphan _ => s.putPkt e.1 k'

/-- The end of a frame that was parsed before it; `bad` is what a sample copy says of one that ended bad, its reason included. -/
def State.endEarly (s : State) (p : Nat) (x : Rx) (w : Wait) (len : Nat) (data : List Byte) (bad : Option Sampled) : State :=
  let fam := s.family x.pktId
  let k := w.pkt
  let fix := s.meterBack k ((k.meterLen : Int) - (min len 16384 : Nat))
  match bad with
  | some b =>
    let s := fam.foldl (fun t e => t.endBad len x.maxFrame b.reason data e) fix
    let s := if w.act = 0 then s else s.dropIn { k with len := min len 16384, cls := 0 } b.reason
    s.sampleCopy { k with data := data, cls := 0 } { b with dropped := decide (w.act ≠ 0) } []
  | none =>
    let e0 := len - 4
    -- a mismatch that its parse found is counted already
    let mis : Bool := decide (w.act = 1) && decide (w.reason = rsLength)
    let held := !mis && k.hv.lengthPending && ([k.hv.outerClaim, k.hv.headEnd].any fun c => match c with | some c => decide (e0 < c) | none => false)
    let live := decide (w.act ≠ 0) || fam.any fun e => decide (e.2.copy = 0)
    let w : Wait := { w with pkt := { k with len := len, known := true, data := data } }
    if held then
      let s := s.meterBack k k.meterCharge
      let s := if live then s.parserStat p 1 else s
      let s := fam.foldl (fun t e => t.endMismatch len e) s
      let w : Wait := { w with act := if w.act = 0 then 0 else 1, reason := rsLength, copy := none }
      let s := if w.act = 1 then s.dropIn w.pkt rsLength else s
      s.sampleCopy w.pkt { len := len, reason := rsLength, dropped := true } (fcsBytes data)
    else
      let hv := if mis then k.hv else k.hv.withTrail e0
      let w : Wait := { w with pkt := { w.pkt with hv := hv } }
      let s := if mis then fix else fix.trailStats p hv.trailLen
      let s := fam.foldl (fun t e => t.endGood len data hv e) s
      let d := s.settle w
      d.1.sampleDecided d.2

/-! ### The end of a frame -/

/-- The row of Table 3-2 (1 to 7). -/
def frameRow (len maxFrame : Nat) (fcsGood : Bool) : Nat :=
  if len < 64 then (if fcsGood then 1 else 2)
  else if 16383 < len then 3
  else if maxFrame < len then (if fcsGood then 4 else 5)
  else if fcsGood then 7 else 6

/-- The decoder of RS-FEC (544,514) corrects up to 15 symbols of a codeword (R71). (DEDUCED: log entry 188.) -/
def fecCorrects (errs : Nat) : Bool := decide (errs ≤ 15)

/-- The port's rate code has FEC (R71). -/
def Port.hasFec (v : Port) : Bool := decide (2 ≤ v.rate.toNat)

/-- A frame meets an uncorrected codeword: the PCS has corrupted the blocks of it that the codeword holds. -/
def Port.fecSpoils (v : Port) (c : FrameCheck) : Bool := v.hasFec && !fecCorrects c.symErrs

/-- A received frame passes its FCS check. -/
def Port.fcsHolds (v : Port) (c : FrameCheck) : Bool := c.fcs && !v.fecSpoils c

/-- The statistic and the reason of rows 1 to 6. -/
def rowStat (row : Nat) : Nat × Nat :=
  match row with
  | 1 => (28, rsRunt)
  | 2 => (29, rsRunt)
  | 3 => (32, rsOversize)
  | 4 => (31, rsOversize)
  | 5 => (32, rsOversize)
  | _ => (30, rsFcs)

/-- The type counter of a destination address, from the first of three: unicast, multicast, broadcast. -/
def typeCounter (first : Nat) (data : List Byte) : Nat :=
  if data.take 6 = List.replicate 6 (0xFF : Byte) then first + 2
  else if (byteAt data 0).getLsbD 0 then first + 1 else first

/-- The statistics of a good frame (Table 3-4). -/
def State.rxGood (s : State) (p len : Nat) (data : List Byte) : State :=
  let et := netAt data 12 2
  let s := (((s.mac p 0).mac p 1 len).mac p (typeCounter 3 data)).mac p (17 + sizeBin len)
  if et = 0x8100 ∨ et = 0x88A8 then s.mac p 6 else s

/-- A good MAC control frame: counted, and its pause states loaded where the mode acts on it (R78, R83, R87).
(DEDUCED: log entry 48.) -/
def State.macControl (s : State) (p : Nat) (data : List Byte) : State :=
  let op := netAt data 14 2
  let mode := (s.port p).fcMode
  let named : List (Nat × Nat) :=
    if op = 1 then [(0, netAt data 16 2)]
    else
      ((List.range 8).filter fun n => (netAt data 16 2).testBit n).map fun n => (n, netAt data (18 + 2 * n) 2)
  if op = 1 ∨ op = 0x0101 then
    let s := if op = 1 then s.mac p 7 else named.foldl (fun t e => t.mac p (8 + e.1)) s
    if (op = 1 ∧ mode = 1) ∨ (op = 0x0101 ∧ mode = 2) then
      let s := if named.any fun e => (tget (s.port p).pause e.1 {}).recovery.isSome then s.mac p 37 else s
      named.foldl (fun t e => t.loadPause p e.1 e.2) s
    else s
  else s.mac p 16

/-- The FCS bytes of a frame: computed where it was good, otherwise not known to the model. -/
def State.fcsSeen (s : State) (data : List Byte) (good : Bool) : State × List Byte :=
  if good then (s, fcsBytes data)
  else
    let f := s.fresh
    (f.2, bytesOf (f.1 % 2 ^ 32) 4)

/-- A well-formed summary or event frame at the manager, which its row delivers to the host (R411, R433); the frame's bytes from 14 on
are those of Table 13-2. -/
def State.hostBound (s : State) (data : List Byte) : Bool :=
  decide (s.parish.role = roleManager) && [rwEvent, rwTallySummary].contains (byteAt data 15).toNat && decide (byteAt data 14 = 1) &&
    decide (netAt data 18 2 = s.parish.parishId.toNat) && decide (data.length = max 60 (30 + netAt data 16 2))

/-- A received frame ends (Table 3-2). -/
def execRxFrameEnd (port len : Nat) (data : List Byte) (check : FrameCheck) (s : State) : Res :=
  onNum (decide (port < 1024))
    (match s.port? port with
      | none => s
      | some v =>
        match v.rx with
        | none => s
        | some x =>
          let fcsGood := v.fcsHolds check
          let row := frameRow len x.maxFrame fcsGood
          let tlen := min len 16384
          let s := s.modPort port fun w =>
            { w with rx := none, uncorrSeen := v.uncorrSeen || v.fecSpoils check, receivedBytes := w.receivedBytes + BitVec.ofNat 64 tlen }
          let s := ((x.owed.foldl (fun t o => t.payBytes tlen o) (s.mac port 2 len)).perf
            { event := 0x031, addr := some port } tlen).rateAdd port 1 tlen
          let k : Pkt :=
            { id := x.pktId, root := x.pktId, ingress := some port, len := tlen, data := data, stampNs := x.stampNs
              stampFrac := x.stampFrac, stepSum := x.stepSum, sample := x.sample }
          if row ≠ 7 then
            let r := rowStat row
            let s := s.mac port r.1
            let why := if x.clkStopped then rsFaultDiscard else r.2
            let seen : Sampled :=
              { len := tlen, reason := why, oversize := decide (r.2 = rsOversize), fcsBad := !fcsGood, runt := decide (row ≤ 2)
                dropped := true }
            match x.wait with
            | some w => s.endEarly port x w len data (some seen)
            | none =>
              let f := (s.dropIn k why).fcsSeen data fcsGood
              f.1.sampleCopy k seen f.2
          else
            let s := s.rxGood port len data
            if x.discard then
              let s := if x.clkStopped then s else s.fenceCount port
              match x.wait with
              | some w => s.endEarly port x w len data (some { len := tlen, reason := rsFaultDiscard, dropped := true })
              | none =>
                (s.dropIn k rsFaultDiscard).sampleCopy k { len := len, reason := rsFaultDiscard, dropped := true }
                  (fcsBytes data)
            else if s.isRiwen port data then
              if s.hostBound data then { s with riwenQ := s.riwenQ ++ [k] }
              else
                let s := (s.fold (laneRegion port) k .consumed rsNone egressNone len).sampleCopy k { len := len } (fcsBytes data)
                if riwenTypes.contains (byteAt data 15).toNat then s else s.rejectRiwen
            else if netAt data 12 2 = 0x8808 then
              let s := s.fold (laneRegion port) k .consumed rsNone egressNone len
              (s.macControl port data).sampleCopy k { len := len } (fcsBytes data)
            else
              match x.wait with
              | some w => s.endEarly port x w len data none
              | none => { s with parseQ := s.parseQ ++ [k] })

end Sys2Proof.Machine
end

