-- ==== Sys2Proof/Machine/Cells.lean ====
section
/-!
DEFINITION. The granary's cells under ECC (R381, R382) and the glacier's descriptors (R386): reading them, and the loss of one.
-/

namespace Sys2Proof.Machine

/-! ### Granary cells (R382) -/

/-- The bank of a cell (chapter 6). -/
def cellBank (cell : Nat) : Nat := cell / 4 % 64

/-- The cell of a bank whose first segment lies in sub-bank `sub`, the `row`-th of these (chapter 6). -/
def cellAt (bank sub row : Nat) : Nat := row * 256 + bank * 4 + sub

/-- The packet of a region whose data a cell holds, with its place (R186). -/
def State.holder (s : State) (region cell : Nat) : Option (Place × Pkt) :=
  let pick (pl : Place) (l : List Pkt) : List (Place × Pkt) := (l.filter fun k => k.cells.contains cell).map fun k => (pl, k)
  ((s.queues.flatMap fun (e : Nat × Queue) => if queueRegion e.1 = region then pick (.granary e.1) e.2.granary else []) ++
    s.ports.flatMap fun (e : Nat × Port) =>
      match e.2.tx with
      | some x => if laneRegion e.1 = region then pick (.sending e.1) [x.pkt] else []
      | none => []).head?

/-- The frame of a packet that is still in reception is dropped when it ends, as decided in its egress region.
(DEDUCED: log entry 132.) -/
def State.dropAtEnd (s : State) (k : Pkt) (reason : Nat) : State :=
  match s.ports.find? fun e => match e.2.rx with | some x => decide (x.pktId = k.root) | none => false with
  | some (p, _) =>
    s.modPort p fun v =>
      { v with rx := v.rx.map fun x => { x with wait := x.wait.map fun w => { w with act := 1, reason := reason, far := true } } }
  | none => s

/-- The packet whose cell is lost is discarded, or stomped once its transmission has begun; true when there is one. -/
def State.loseCell (s : State) (region cell : Nat) : State × Bool :=
  match s.holder region cell with
  | none => (s, false)
  | some (.sending p, k) =>
    (s.putPkt (.sending p) (if k.badEnd.isSome then k else { k with badEnd := some (BitVec.ofNat 8 rsFaultDiscard) }), true)
  | some (.granary q, k) =>
    let t := s.pullPkt (.granary q) k
    if k.known = false ∧ k.copy = 0 then (((t.freePkt q k).uncross k).dropAtEnd k rsFaultDiscard, true)
    else (t.dropQueued q k rsFaultDiscard, true)
  | some _ => (s, false)

/-- A double-bit error in a cell: its packet ends, and the cell is tested. -/
def State.cellLost (s : State) (region cell : Nat) (cellOk : Bool) : State :=
  let inst := region * 64 + cellBank cell
  let x := s.loseCell region cell
  let t := x.1.detectWithin dGranaryUe inst cell 1 20000 (b2n x.2) true
  if cellOk then t
  else
    (t.modRegion region fun g => { g with retired := tins g.retired cell (), drawn := tins g.drawn cell () }).unitFailed
      dGranaryUe inst 1

/-- The words of a packet's cells are read as it is sent: a pattern that waits in one of them is met there, corrected and written back,
or beyond correction (R379, R381). -/
def State.readCells (s : State) (region : Nat) (k : Pkt) : State :=
  k.cells.foldl
    (fun t c =>
      let inst := region * 64 + cellBank c
      let x := t.eccMeets dGranaryCe dGranaryUe dGranaryUe inst (some c)
      match x.2 with
      | none => x.1
      | some (n, _) => if n = 1 then x.1.detect dGranaryCe inst c false else x.1.cellLost region c true) s

/-! ### Glacier descriptors (R215, R386) -/

/-- Cuts the packets of a queue's glacier segment after the first `keep`: the audit will find their blocks. -/
def State.orphan (s : State) (q keep : Nat) : State × List Pkt :=
  let x := s.queue q
  let lost := x.glacier.drop keep
  let t := (s.setQueue q { x with glacier := x.glacier.take keep }).endSpill q
  (t.modGlacier (regionDie (queueRegion q)) fun g => { g with orphans := g.orphans ++ lost }, lost)

/-- The stack of a die that holds a block: the pools interleave both stacks (R206). -/
def blockStack (d b : Nat) : Nat := 2 * d + b % 2

/-- A descriptor is broken: every packet of the segment from it onward is lost, and the pool audit will find their blocks (R215, R386).
-/
def State.descLost (s : State) (queue keep : Nat) (k : Pkt) : State :=
  let d := regionDie (queueRegion queue)
  let b := (k.block.map Prod.snd).getD 0
  let inst := blockStack d b
  let s := s.eccReal [dGlacierCe, dGlacierDesc] dGlacierDesc inst b
  let m := s.mark dGlacierDesc inst b
  let s := (s.detect dGlacierDesc inst b true).orphan queue keep
  s.1.modGlacier d fun g => { g with audits := g.audits ++ [m] }

/-- The descriptor of a glacier packet holds a pattern beyond correction, met as it is read (R400). -/
def State.descStruck (s : State) (queue : Nat) (k : Pkt) : Bool :=
  let b := (k.block.map Prod.snd).getD 0
  s.err.injections.any fun j => j.touches dGlacierDesc (blockStack (regionDie (queueRegion queue)) b) b && decide (2 ≤ j.flips)

end Sys2Proof.Machine
end

