-- ==== Sys2Proof/Machine/Rings.lean ====
section
/-!
DEFINITION. Rings in host memory as shared operations (R303, R337, R338): free space, the reread of CONSUMER, a unit
written, and MSI-X messages (R338, R339).
-/

namespace Sys2Proof.Machine

def Ring.size (r : Ring) : Nat := 2 ^ r.sizeLog2.toNat

/-- Bytes written and not released. -/
def Ring.held (r : Ring) : Nat := (r.producer - r.consumer).toNat

/-- `n` more bytes fit. -/
def Ring.fits (r : Ring) (n : Nat) : Bool := decide (r.held + n ≤ r.size)

/-- The ring after the device has read `c` as CONSUMER: a value outside PRODUCER - size to PRODUCER counts as
PRODUCER - size (R303); true where it was outside. -/
def Ring.reread (r : Ring) (c : BitVec 64) : Ring × Bool :=
  if (r.producer - c).toNat ≤ r.size then ({ r with consumer := c }, false)
  else ({ r with consumer := r.producer - BitVec.ofNat 64 r.size }, true)

/-- The ring as it is when a unit of `n` bytes is to be written: CONSUMER is read again only when space is short. -/
def Ring.ready (r : Ring) (n : Nat) (c : BitVec 64) : Ring × Bool :=
  if r.fits n then (r, false) else r.reread c

/-- The ring after `n` bytes have been written to it. -/
def Ring.put (r : Ring) (n : Nat) : Ring := { r with producer := r.producer + BitVec.ofNat 64 n }

/-- A ring newly configured: PRODUCER and CONSUMER 0, DROPPED_UNITS 0. -/
def Ring.fresh (en : Bool) (fn sizeLog2 base ctrl : Nat) : Ring :=
  { en := en, fn := fn, sizeLog2 := BitVec.ofNat 5 sizeLog2, base := BitVec.ofNat 64 base, ctrl := BitVec.ofNat 64 ctrl }

/-- `n` rounded up to a multiple of `k`. -/
def roundUp (n k : Nat) : Nat := ceilDiv n k * k

/-- Bytes filled with zeros to a multiple of `k`. -/
def padBytes (bs : List Byte) (k : Nat) : List Byte := bs ++ List.replicate (roundUp bs.length k - bs.length) 0

/-- A vector of a function may send a message: its last one is a µs old (R338). -/
def State.msixFree (s : State) (fn v : Nat) : Bool :=
  match tget? (s.func fn).msixAt v with
  | none => true
  | some t => decide (t + 1000 ≤ s.time.runNs)

/-- A message goes out on a vector now; it covers every advance so far. -/
def State.msixSend (s : State) (fn v : Nat) : State :=
  let f := s.func fn
  (s.setFunc fn { f with msixAt := tins f.msixAt v s.time.runNs, msixPend := tdel f.msixPend v }).emit (.msix fn v)

/-- Sends an MSI-X message on a vector of a function, at most one per vector per µs: an advance within the µs waits for
the next message (R338). (DESIGN CHOICE: log entry 36.) -/
def State.msix (s : State) (fn v : Nat) : State :=
  if s.msixFree fn v then s.msixSend fn v
  else s.setFunc fn { s.func fn with msixPend := tins (s.func fn).msixPend v () }

/-- The messages whose µs has passed are sent for the advances that waited. -/
def State.msixDue (s : State) : State :=
  s.cif.funcs.foldl
    (fun t (e : Nat × Func) => e.2.msixPend.foldl (fun u (x : Nat × Unit) => if u.msixFree e.1 x.1 then u.msixSend e.1 x.1 else u) t) s

end Sys2Proof.Machine
end

