-- ==== Sys2Proof/Machine/Clock.lean ====
section
/-!
DEFINITION. The time base's own advance (R262, R276).
-/

namespace Sys2Proof.Machine

/-- One nanosecond in units of 2^-48. -/
def nsUnit : Int := 2 ^ 48

/-- The limit of FREQ_ADJ with a slew added: 500 ppm of a nanosecond, in units of 2^-48. -/
def ppm500 : Int := 500 * nsUnit / 1000000

/-- The part of a slew that one cycle removes (R276): at most SLEW_MAX, with the sum held to 500 ppm. -/
def Time.slewStep (t : Time) : Int :=
  let m : Int := (t.slewMax.toNat : Int) * nsUnit / 1000000
  let want := max (-m) (min m t.slewLeft)
  max (-ppm500) (min ppm500 (t.freqAdj + want)) - t.freqAdj

/-- The time base as one number, in units of 2^-48 ns. -/
def Time.total (t : Time) : Int := (t.ns : Int) * nsUnit + t.frac.toNat

/-- The time base set to a value in units of 2^-48 ns. -/
def Time.load (t : Time) (v : Int) : Time := { t with ns := (v / nsUnit).toNat, frac := BitVec.ofInt 48 (v % nsUnit) }

/-- The time base one TBCLK cycle on: 1 ns x (1 + FREQ_ADJ) and the slew's part. -/
def Time.advance (t : Time) : Time :=
  let d := t.slewStep
  { t.load (t.total + nsUnit + t.freqAdj + d) with slewLeft := t.slewLeft - d }

/-- `n` cycles on, each with the same part `d` of a slew. -/
def Time.cycles (t : Time) (n d : Int) : Time := { t.load (t.total + n * (nsUnit + t.freqAdj + d)) with slewLeft := t.slewLeft - n * d }

/-- `n` cycles that add at least `v`, where each adds `r`. -/
def cyclesFor (v r : Int) : Int := (v + max 1 r - 1) / max 1 r

/-- The time base at the first TBCLK cycle at which it is not before `ns`: the cycles with a whole slew step, the one that ends the
slew, and those without one (R262, R276). -/
def Time.reach (t : Time) (ns : Nat) : Time :=
  if ns ≤ t.ns then t
  else
    let d := t.slewStep
    let n := cyclesFor ((ns : Int) * nsUnit - t.total) (nsUnit + t.freqAdj + d)
    if d = 0 ∨ (n * d).natAbs ≤ t.slewLeft.natAbs then t.cycles n d
    else
      let u := (t.cycles ((t.slewLeft.natAbs / d.natAbs : Nat) : Int) d).advance
      if ns ≤ u.ns then u else u.cycles (cyclesFor ((ns : Int) * nsUnit - u.total) (nsUnit + u.freqAdj)) 0

/-- TBCLK runs: the clocks have started, its PLL group has not failed, and no reset condition holds the device (R261, R262). -/
def State.timeRuns (s : State) : Bool :=
  !s.pwr.clkFailed.getLsbD 31 && (s.pwr.ready || (s.aon.vaux && s.aon.hold.isEmpty && decide (3 ≤ s.aon.stage.toNat) && decide (s.aon.stage.toNat ≤ 8)))

/-- The time base has run to `t`: the counters of nanoseconds follow (Table 9-9), and the MSI-X messages that waited
(R338). -/
def State.elapse (s : State) (t : Time) : State := (({ s with time := t }).perf { event := 0x001 } (t.ns - s.time.ns)).msixDue

end Sys2Proof.Machine
end

