-- ==== Sys2Proof/Machine/Telemetry.lean ====
section
/-!
DEFINITION. Tally periods, their close, check and dumps (R297 to R308), the performance dumps and rate windows of a beat
boundary (R311 to R313), units on their way to their rings (R302 to R304), and the commands of group 0x08.
-/

namespace Sys2Proof.Machine

/-! ### Periods (R297, R298, R304) -/

/-- The first multiple of 2^k above beat `b`. -/
def nextPeriod (k b : Nat) : Nat := (b / 2 ^ k + 1) * 2 ^ k

/-- OPEN of an ingress port: the originals of it in reception, in the pipelines, in the crossbar and in the granaries and glaciers,
counted where they are held (R299). -/
def State.openOf (s : State) (p : Nat) : Nat :=
  let mine (l : List Pkt) : List Nat := (l.filter fun k => decide (k.copy = 0) && decide (k.ingress = some p)).map (·.id)
  let rx : List Nat := match (s.port p).rx with
    | some x => (match x.wait with
      | some w => if w.act = 0 then [] else [x.pktId]
      | none => [x.pktId])
    | none => []
  let sent := s.ports.filterMap fun (e : Nat × Port) => e.2.tx.map (·.pkt)
  (rx ++ mine s.parseQ ++ mine s.riwenQ ++ mine s.arrivals ++
    (s.queues.flatMap fun (e : Nat × Queue) => mine e.2.granary ++ mine e.2.glacier) ++ mine sent ++
    s.glaciers.flatMap fun (e : Nat × Glacier) => mine e.2.orphans).eraseDups.length

/-- RECEIVED, its bytes and OPEN at both ends of the period that ends now. -/
def State.periodRecv (s : State) : Tab (BitVec 64 × BitVec 64 × Nat × Nat) :=
  let own := s.ports.map fun e => (e.1, e.2.received, e.2.receivedBytes, e.2.openStart, s.openOf e.1)
  (tkeys s.tally.deleted).foldl
    (fun t p =>
      if s.hasPort p then t
      else
        let v := tget s.tally.gone p {}
        tins t p (v.received, v.receivedBytes, v.openStart, 0)) own

/-- A port's account at the start of a period. -/
def Port.openPeriod (v : Port) (n : Nat) : Port := { v with received := 0, receivedBytes := 0, openStart := n }

/-- The bins that a period leaves, by queue. -/
def State.periodHist (s : State) : Tab (Tab (BitVec 48)) :=
  (s.queues.filter fun e => !e.2.hist.isEmpty).foldl
    (fun t e => tins t e.1 (addBins (tget t e.1 []) e.2.hist)) s.tally.histGone

/-- The injections that wait for the next access to a port's RECEIVED, its check: 1 more (Table 12-1). -/
def State.strikeTally (s : State) : State :=
  (s.err.injections.filter fun j => decide (j.det = dImbalance) && j.due && !j.struck && decide (j.mode ≠ 1)).foldl
    (fun t j => (t.putInPlace j).modPort j.inst fun v => { v with received := v.received + 1 }) s

/-- The period in progress ends at the boundary of now: the banks switch, or the period is merged with the next while the
earlier dumps are not complete. (DEDUCED: log entry 100.) -/
def State.endPeriod (s : State) (last newFirst : Nat) : State :=
  let t := s.tally
  if t.prev.isSome then
    let k := t.newLog2.getD t.periodLog2
    let s' := { s with tally := { t with
      merging := true, periodLog2 := k, newLog2 := none, endBeat := BitVec.ofNat 48 (nextPeriod k.toNat newFirst)
      histShift := t.newShift.getD t.histShift, newShift := none } }
    if t.merging then s' else s'.raise 0 0x0802 (wordsOf t.first.toNat 2)
  else
    let k := t.newLog2.getD t.periodLog2
    let s := s.strikeTally
    let prev : Period :=
      { first := t.first, last := BitVec.ofNat 48 last, gen := t.gen, stepped := t.stepped, merged := t.merging
        recv := s.periodRecv, westAbsent := t.westGone, eastAbsent := t.eastGone
        ns := s.time.ns, frac := s.time.frac.extractLsb' 32 16, shift := t.histShift, hist := s.periodHist }
    { s with
        ports := s.ports.map fun e => (e.1, e.2.openPeriod (s.openOf e.1))
        queues := (s.queues.map fun e => (e.1, { e.2 with hist := [] })).filter fun e => decide (e.2 ≠ {})
        tally := { t with
          prev := some prev, first := BitVec.ofNat 48 newFirst, gen := s.time.bellGen, stepped := false, merging := false
          periodLog2 := k, newLog2 := none, endBeat := BitVec.ofNat 48 (nextPeriod k.toNat newFirst)
          histShift := t.newShift.getD t.histShift, newShift := none
          gone := t.gone.map fun e => (e.1, { e.2 with received := 0, receivedBytes := 0, openStart := 0 })
          deleted := [], histGone := []
          westGone := s.dieStopped 0 || t.westBack, eastGone := s.dieStopped 1 || t.eastBack
          westBack := false, eastBack := false
          banks := t.banks.map fun e => (e.1, { cur := [], prev := e.2.cur, fullRaised := false }) } }

/-- The header of a unit of the closed period. -/
def Period.head (p : Period) (overflow : Bool) (count seq : Nat) : UnitHead :=
  { gen := p.gen, stepped := p.stepped, merged := p.merged, west := p.westAbsent, east := p.eastAbsent
    overflow := overflow, first := p.first.toNat, last := p.last.toNat, count := count, recSeq := seq
    time := some (p.ns, p.frac) }

/-- A tally record (Table 9-6). -/
def tallyRecord (seq : Nat) (e : TEnt) : List Word :=
  wordsOf seq 2 ++
    [pack [(0, e.key.ingress), (10, e.key.egress), (21, e.key.cls.toNat), (25, e.key.disp.code)],
     pack [(0, e.key.reason.toNat), (8, e.key.copy), (13, b2n e.key.overflow)]] ++
    wordsOf e.packets.toNat 2 ++ wordsOf e.bytes.toNat 2

/-- DEDUCED: log entry 106. -/
def tallyRecords : Nat → List TEnt → List Word
  | _, [] => []
  | seq, e :: es => tallyRecord seq e ++ tallyRecords (seq + 1) es

/-- The TALLY unit of a region (R306); a region whose die is stopped writes none. (DESIGN CHOICE: log entry 202.) -/
def State.tallyUnit (s : State) (p : Period) (r : Nat) : State :=
  if s.dieStopped (regionDie r) then s
  else
    let l := (tget s.tally.banks r {}).prev
    let seq := (s.region r).seq.toNat
    (s.modRegion r fun g => { g with seq := g.seq + BitVec.ofNat 64 l.length }).addUnit 0 (1 + r)
      (p.head (l.any fun e => e.key.overflow) l.length seq) (tallyRecords seq l)

/-- A histogram record (Table 9-8). -/
def histRecord (shift q : Nat) (bins : Tab (BitVec 48)) : List Word :=
  [pack [(0, q), (14, shift)], 0] ++ (List.range 16).flatMap fun i => wordsOf (tget bins i 0).toNat 2

/-- The HISTOGRAM unit of a region (R308). -/
def State.histUnit (s : State) (p : Period) (r : Nat) : State :=
  if s.dieStopped (regionDie r) then s
  else
    let l := p.hist.filter fun e => decide (queueRegion e.1 = r)
    s.addUnit 2 (1 + r) (p.head false l.length 0) (l.flatMap fun e => histRecord p.shift.toNat e.1 e.2)

/-- The period's dumps are complete when it is checked and none of its units waits (R304). -/
def State.periodDone (s : State) : State :=
  match s.tally.prev with
  | none => s
  | some p =>
    if p.checked && s.tally.units.all fun u => decide (3 ≤ u.stream) then
      { s with tally := { s.tally with prev := none } }
    else s

/-- The previous bank closes and its dumps begin (R298). -/
def execTallyBankClose (s : State) : Res :=
  .next
    (match s.tally.prev with
      | none => s
      | some p =>
        if p.closed then s
        else
          let t := { s with tally := { s.tally with prev := some { p with closed := true } } }
          (List.range 4).foldl (fun u r => (u.tallyUnit p r).histUnit p r) t)

/-! ### The conservation check (R299, R300, R315) -/

/-- The packets and bytes of a port's originals with a disposition in the closed period. -/
def State.disposed (s : State) (p : Nat) (d : Disp) : Nat × Nat :=
  ((List.range 4).flatMap fun r => (tget s.tally.banks r {}).prev).foldl
    (fun a e =>
      if e.key.ingress = p ∧ e.key.copy = 0 ∧ e.key.disp = d then (a.1 + e.packets.toNat, a.2 + e.bytes.toNat) else a)
    (0, 0)

/-- The five dispositions of originals, in the order of Table 9-1. -/
def originals : List Disp := [.forwarded, .stomped, .dropped, .toHost, .consumed]

/-- The balance of a port over the closed period. -/
structure Balance where
  port    : Nat
  absent  : Bool
  recv    : Nat
  bytes   : Nat
  open0   : Nat
  open1   : Nat
  counts  : List Nat
  fwdBytes : Nat
  deriving DecidableEq, Repr

def State.balance (s : State) (p : Period) (e : Nat × (BitVec 64 × BitVec 64 × Nat × Nat)) : Balance :=
  { port := e.1
    absent := if e.1 / 512 = 0 then p.westAbsent else p.eastAbsent
    recv := e.2.1.toNat, bytes := e.2.2.1.toNat, open0 := e.2.2.2.1, open1 := e.2.2.2.2
    counts := originals.map fun d => (s.disposed e.1 d).1
    fwdBytes := (s.disposed e.1 .forwarded).2 + (s.disposed e.1 .stomped).2 }

/-- Left side minus right side of the check of R299. -/
def Balance.diff (b : Balance) : Int := (b.recv + b.open0 : Nat) - ((b.counts.foldl (· + ·) 0) + b.open1 : Nat)

/-- A balance record (Table 9-7). -/
def Balance.record (b : Balance) : List Word :=
  [pack [(0, b.port), (16, b2n !b.absent), (17, b2n b.absent), (18, b2n (!b.absent && decide (b.diff ≠ 0)))], 0] ++
    wordsOf b.recv 2 ++ [word b.open0, word b.open1] ++ b.counts.flatMap fun n => wordsOf n 2

/-- The records of all 1,024 port numbers (R307). -/
def balanceRecords (l : List Balance) : List Word :=
  (List.range 1024).flatMap fun p =>
    match l.find? fun b => decide (b.port = p) with
    | some b => b.record
    | none => word p :: List.replicate 15 0

/-- Adds a checked period to a port's cumulative totals (R315). -/
def Port.accumulate (v : Port) (b : Balance) (last : BitVec 48) : Port :=
  let add := [b.recv] ++ b.counts ++ [b.bytes, b.fwdBytes]
  let sums := (List.range 8).map fun i => (v.cum.getD i 0).toNat + add.getD i 0
  { v with
      cum := if v.cumFrozen then v.cum else sums.map fun n => BitVec.ofNat 64 n
      bytesWrapped := v.bytesWrapped || decide (2 ^ 64 ≤ sums.getD 6 0) || decide (2 ^ 64 ≤ sums.getD 7 0)
      lastChecked := last
      imbalanced := if b.diff ≠ 0 then satAdd 32 v.imbalanced 1 else v.imbalanced }

/-- Checks one port of the closed period. -/
def State.checkPort (s : State) (p : Period) (b : Balance) : State :=
  if b.absent then s.modAccount b.port fun v => { v with absentPeriods := satAdd 31 v.absentPeriods 1 }
  else
    let s := s.modAccount b.port fun v => v.accumulate b p.last
    if b.diff = 0 then s
    else
      (s.detectLog dImbalance b.port 0).raise 0 0x0801
        ([word b.port] ++ wordsOf p.first.toNat 2 ++ wordsOf (unsigned 64 b.diff) 2) (some b.port)

/-- The device has upstream ports: a standby, a relay or a worker (Table 13-1). -/
def State.hasUpstream (s : State) : Bool := decide (2 ≤ s.parish.role.toNat) && decide (s.parish.role.toNat ≤ 4)

/-- The UP upstream port of a role: 1 the primary, 2 the alternate. -/
def State.upPort (s : State) (role : Nat) : Option Nat :=
  if s.hasUpstream then (tkeys s.ports).find? fun p => decide ((s.port p).portRole.toNat = role) && s.isUp p else none

/-- The active upstream (R409): 0 none, 1 primary, 2 alternate. -/
def State.activeUp (s : State) : Nat :=
  match if (s.upPort 1).isSome then s.parish.primGen else none, if (s.upPort 2).isSome then s.parish.altGen else none with
  | none, none => 0
  | some _, none => 1
  | none, some _ => 2
  | some x, some y => if x.toNat < y.toNat then 2 else 1

/-- The active upstream port. -/
def State.upstream (s : State) : Option Nat :=
  match s.activeUp with
  | 0 => none
  | r => s.upPort r

/-- Splits records into frames of 60 (R433). -/
def chunks (n : Nat) (l : List Balance) : Nat → List (List Balance)
  | 0 => []
  | k + 1 => if l.isEmpty then [] else l.take n :: chunks n (l.drop n) k

/-- A worker, relay or standby sends its balances to the manager, 60 to a frame (R301, R433). -/
def State.sendSummaries (s : State) (p : Period) (l : List Balance) : State :=
  match s.upstream with
  | none => s
  | some up =>
    if s.tally.summaryEn = false then s
    else
      (chunks 60 l 18).foldl
        (fun t c =>
          t.queueRiwen up rwTallySummary 0
            (netBytes p.first.toNat 6 ++ [BitVec.ofNat 8 c.length, 0] ++ wordsToBytes (c.flatMap Balance.record))) s

/-- The central steward checks the closed period; the BALANCE unit follows with its marks. (DEDUCED: log entry 101.) -/
def execConservationCheck (s : State) : Res :=
  .next
    (match s.tally.prev with
      | none => s
      | some p =>
        if p.closed = false ∨ p.checked = true then s
        else
          let l := p.recv.map fun e => s.balance p e
          let t := l.foldl (fun u b => u.checkPort p b) s
          let t := t.addUnit 1 0 (p.head false 1024 0) (balanceRecords l)
          let t := t.sendSummaries p (l.filter fun b => s.hasPort b.port)
          { t with tally := { t.tally with
              prev := some { p with checked := true }
              banks := t.tally.banks.map fun (e : Nat × Bank) => (e.1, { e.2 with prev := [] }) } }.periodDone)

/-! ### Units and their rings (R302 to R304) -/

/-- Removes the oldest unit of a stream. -/
def popUnit (stream : Nat) : List DumpUnit → Option (DumpUnit × List DumpUnit)
  | [] => none
  | u :: us =>
    if u.stream = stream then some (u, us)
    else (popUnit stream us).map fun r => (r.1, u :: r.2)

def State.setRing (s : State) (k : Nat) (r : Ring) : State :=
  { s with tally := { s.tally with rings := tins s.tally.rings k r } }

/-- A unit of a lossy stream is lost (R302). -/
def State.loseUnit (s : State) (u : DumpUnit) : State :=
  let k := u.stream * 8 + u.source
  let r := tget s.tally.rings u.stream {}
  let s := s.setRing u.stream { r with dropped := r.dropped + 1 }
  { s with tally := { s.tally with lostUnits := tins s.tally.lostUnits k (tget s.tally.lostUnits k 0 + 1) } }

/-- STREAM_OVERFLOW for every stream and source that lost units in the beat that ends (R302). (DEDUCED: log entry 103.) -/
def State.streamOverflows (s : State) : State :=
  s.tally.lostUnits.foldl (fun t e => t.raise 0 0x0803 [word (e.1 / 8), word (e.1 % 8), word e.2])
    { s with tally := { s.tally with lostUnits := [] } }

/-- A stream's oldest unit is written, waits for space, or, on a lossy stream, is lost. -/
def execDumpUnitWrite (stream : Nat) (consumer : BitVec 64) (s : State) : Res :=
  onNum (decide (stream < 6))
    (match popUnit stream s.tally.units with
      | none => s
      | some (u, rest) =>
        let r := tget s.tally.rings stream {}
        -- what cannot be written: a lossless unit waits, a lossy one is lost
        if s.cif.pcieUp = false then
          if stream < 3 then s else ({ s with tally := { s.tally with units := rest } }).loseUnit u
        else
          let n := 4 * u.words.length
          let x := r.ready n consumer
          let bad := x.2 && !r.errRaised
          let s := s.setRing stream { x.1 with errRaised := r.errRaised || x.2 }
          let s := if bad then s.raise 0 0x0804 [word stream] else s
          let gone := { s with tally := { s.tally with units := rest } }
          if x.1.fits n then
            (((gone.setRing stream { (tget s.tally.rings stream {}) with producer := (x.1.put n).producer }).emit
              (.ringUnit 2 r.fn stream u.words [])).periodDone)
          else if stream < 3 then s
          else gone.loseUnit u)

/-! ### A beat boundary's part -/

/-- The entry of a counter (Table 9-10). -/
def Perf.entry (c : Perf) (reconf : Bool) : List Word :=
  [c.count.val.truncate 32,
   pack [(0, c.count.val.toNat / 2 ^ 32), (16, b2n c.count.sticky), (17, b2n reconf), (18, b2n c.enable)]]

/-- The counter that PC_CONFIG's words 1 to 5 describe. -/
def perfOf (w : List Word) : Perf :=
  { event := (wd w 0).extractLsb' 0 10, enable := bit (wd w 0) 10, owner := (wd w 0).extractLsb' 11 4
    ownerEn := bit (wd w 0) 15, privMask := (wd w 0).extractLsb' 16 4
    chanMask := (wd w 1).extractLsb' 0 4, fnMask := (wd w 1).extractLsb' 4 16
    clsMask := (wd w 2).extractLsb' 0 16, addrEn := bit (wd w 2) 16, addrLow := wd w 3, addrHigh := wd w 4 }

/-- The counter after a beat boundary: a staged configuration takes over, with the value cleared (R311). -/
def Perf.boundary (c : Perf) : Perf :=
  match c.staged with
  | some w => perfOf w
  | none => c

/-- A multiple of `n` lies above `old` and not above `new`. -/
def crossed (n old new : Nat) : Bool := decide (old / n < new / n)

/-- The PERF dump that is due at a boundary from beat `old` to `new`, and the reconfigurations that wait for it. A new bell
generation begins a new range. (DEDUCED: log entry 104.) -/
def State.perfBoundary (s : State) (old new : Nat) (newGen : Bool) : State :=
  let n := 2 ^ s.tally.pcDumpLog2.toNat
  let due := if newGen then decide (new % n = 0) else crossed n old new
  let s :=
    if due then
      let ws := (List.range 512).flatMap fun i =>
        let c := tget s.tally.perf i {}
        c.entry c.staged.isSome
      let h : UnitHead :=
        { gen := s.tally.pcGen, stepped := s.tally.pcStepped, first := s.tally.pcFirst
          last := if newGen then old else new - 1, count := 512 }
      s.addUnit 3 0 h ws
    else s
  let s :=
    if due || newGen then
      { s with tally := { s.tally with pcFirst := new, pcStepped := false, pcGen := s.time.bellGen } }
    else s
  { s with tally := { s.tally with perf := (s.tally.perf.map fun e => (e.1, e.2.boundary)).filter fun e => decide (e.2 ≠ {}) } }

/-- At a boundary from beat `old` to `new` a rate window that ends there is latched, valid from the first whole one on, and the next begins; a new
bell generation cuts a window short unless it ended there (R313). (DEDUCED: log entry 181.) -/
def Port.rateBoundary (v : Port) (old new : Nat) (newGen : Bool) : Port :=
  let w := v.window.toNat
  let ends := if newGen then decide ((old + 1) % w = 0) else crossed w old new
  let v :=
    if v.rateEn && ends then
      { v with rateLatch := v.rateRun, rateLatchFirst := v.rateFirst, rateLatchWindow := v.window, rateValid := v.rateValid || !v.ratePartial }
    else v
  if v.rateEn && (ends || newGen) then
    { v with
        ratePartial := newGen && decide (new % w ≠ 0), rateRun := [0, 0, 0, 0]
        rateFirst := BitVec.ofNat 48 (new / w * w) }
  else v

/-- What falls due in the telemetry at the boundary that moves the beat from `old` to `new`; a forward step or a new bell
generation ends the period anyway. -/
def State.telemetryBoundary (s : State) (old new : Nat) (stepped newGen : Bool) : State :=
  let s := s.streamOverflows
  let s := if stepped || newGen || decide (s.tally.endBeat.toNat ≤ new) then s.endPeriod (if newGen then old else new - 1) new else s
  let s := s.perfBoundary old new newGen
  { s with ports := s.ports.map fun e => (e.1, e.2.rateBoundary old new newGen) }

/-! ### Commands (R319 to R326) -/

/-- TALLY_CONFIG (R297, R308, R312, R320). -/
def tallyConfigAct (c : Cmd) (s : State) : State × Option Ans :=
  let w := wd c.words 1
  let k := fld w 0 5
  let h := fld w 6 5
  let m := fld w 12 8
  if k < 7 ∨ 20 < k ∨ h < 4 ∨ 16 < h ∨ 20 < m then fail s stBadParam
  else
    done { s with tally := { s.tally with
      newLog2 := some (BitVec.ofNat 5 k), summaryEn := bit w 5, newShift := some (BitVec.ofNat 5 h), histEn := bit w 11
      pcDumpLog2 := BitVec.ofNat 8 m } }

def execTallyConfig (c : Cmd) (s : State) : Res := .next (runCmd 0x0801 c s (tallyConfigAct c))

/-- The base and control addresses of a ring are aligned. -/
def ringAligned (ws : List Word) : Bool := decide (wd64 ws 2 % 4096 = 0) && decide (wd64 ws 4 % 64 = 0)

/-- A function that takes part: function 0, or a virtual function that is enabled. -/
def fnEnabled (f : Nat) : Bool := decide (f = 0) || Config.vfEnabled f

/-- DUMP_RING_CONFIG (R302, R303, R321). -/
def dumpRingConfigAct (c : Cmd) (s : State) : State × Option Ans :=
  let k := fld (wd c.words 0) 0 3
  let w := wd c.words 1
  let en := bit w 0
  let z := fld w 5 5
  if 6 ≤ k ∨ (en = true ∧ (z < 16 ∨ 30 < z)) ∨ ringAligned c.words = false then fail s stBadParam
  else if fnEnabled (fld w 1 4) = false then fail s stNotFound
  else
    let s := s.setRing k (Ring.fresh en (fld w 1 4) z (wd64 c.words 2) (wd64 c.words 4))
    if en then done s
    else
      done { s with tally := { s.tally with units := s.tally.units.filter fun u => decide (u.stream ≠ k) } }.periodDone

def execDumpRingConfig (c : Cmd) (s : State) : Res := .next (runCmd 0x0802 c s (dumpRingConfigAct c))

/-- TALLY_PORT_READ (R315, R322). -/
def tallyPortReadAct (c : Cmd) (s : State) : State × Option Ans :=
  onPort c s fun _ v =>
    if v.cumFrozen then fail s stUncorrected else
    done s ([pack [(0, b2n v.bytesWrapped), (1, v.absentPeriods.toNat)]] ++ wordsOf v.lastChecked.toNat 2 ++
      (List.range 8).flatMap (fun i => wordsOf (v.cum.getD i 0).toNat 2) ++ [v.imbalanced])

def execTallyPortRead (c : Cmd) (s : State) : Res := .next (runCmd 0x0803 c s (tallyPortReadAct c))

/-- The filters that Table 9-9 gives an event: privilege, master, address, class; none for a reserved code. -/
def perfFilters (ev : Nat) : Option (Bool × Bool × Bool × Bool) :=
  match ev with
  | 0x000 => some (false, false, false, false)
  | 0x001 => some (false, false, false, false)
  | 0x010 => some (true, true, true, false)
  | 0x011 => some (true, true, true, false)
  | 0x012 => some (true, true, true, false)
  | 0x013 => some (true, true, true, false)
  | 0x014 => some (true, true, false, false)
  | 0x020 => some (false, false, true, true)
  | 0x021 => some (false, false, true, true)
  | 0x022 => some (false, false, true, true)
  | 0x023 => some (false, false, true, true)
  | 0x024 => some (false, false, true, true)
  | 0x030 => some (false, false, true, false)
  | 0x031 => some (false, false, true, false)
  | 0x032 => some (false, false, true, true)
  | 0x033 => some (false, false, true, true)
  | 0x034 => some (false, false, true, true)
  | 0x035 => some (false, false, true, true)
  | 0x036 => some (false, false, true, true)
  | 0x037 => some (false, false, true, true)
  | 0x040 => some (false, false, true, false)
  | 0x041 => some (false, false, true, false)
  | 0x050 => some (false, true, false, false)
  | 0x051 => some (false, true, false, false)
  | _ => none

/-- The filters that an event does not have are at their reset values (R309). -/
def Perf.legal (c : Perf) : Bool :=
  match perfFilters c.event.toNat with
  | none => false
  | some (p, m, a, k) =>
    (p || decide (c.privMask = 0xF)) && (m || (decide (c.chanMask = 0xF) && decide (c.fnMask = 0xFFFF))) &&
    (a || (!c.addrEn && decide (c.addrLow = 0) && decide (c.addrHigh = 0))) && (k || decide (c.clsMask = 0xFFFF)) &&
    (!c.addrEn || decide (c.addrLow.toNat ≤ c.addrHigh.toNat))

/-- Two configurations count the same: event and filters agree. -/
def Perf.sameCount (a b : Perf) : Bool :=
  decide ({ a with enable := false, owner := 0, ownerEn := false, count := {}, staged := none } =
    { b with enable := false, owner := 0, ownerEn := false, count := {}, staged := none })

/-- PC_CONFIG (R309, R311, R323). (DEDUCED: log entry 105.) -/
def pcConfigAct (c : Cmd) (s : State) : State × Option Ans :=
  let i := fld (wd c.words 0) 0 9
  let new := perfOf (c.words.drop 1)
  let old := tget s.tally.perf i {}
  let put (v : Perf) : State × Option Ans := done { s with tally := { s.tally with perf := tset s.tally.perf i {} v } }
  if new.legal = false then fail s stBadParam
  else if old.sameCount new then
    put { old with enable := new.enable, owner := new.owner, ownerEn := new.ownerEn, staged := none }
  else put { old with staged := some (c.words.drop 1) }

def execPcConfig (c : Cmd) (s : State) : Res := .next (runCmd 0x0804 c s (pcConfigAct c))

/-- A sender owns a counter (R314). -/
def Perf.ownedBy (c : Perf) : Sender → Bool
  | .pcie f => c.ownerEn && decide (c.owner.toNat = f)
  | _ => false

/-- PC_READ (R310, R314, R319). -/
def pcReadAct (c : Cmd) (s : State) : State × Option Ans :=
  let w := wd c.words 0
  let first := fld w 0 9
  let n := fld w 9 9
  let run := (List.range n).map (first + ·)
  let own := run.all fun i => (tget s.tally.perf i {}).ownedBy c.src
  if s.cmdPriv c < 2 ∧ (own = false ∨ bit w 31 = true) then fail s stNoPrivilege
  else if n = 0 ∨ 256 < n ∨ 512 < first + n then fail s stBadParam
  else if run.any fun i => (tget s.tally.perf i {}).count.frozen then fail s stUncorrected
  else
    let ws := run.flatMap fun i => (tget s.tally.perf i {}).entry false
    let t :=
      if bit w 31 then
        run.foldl
          (fun u i => { u with tally := { u.tally with
            perf := tset u.tally.perf i {} { (tget u.tally.perf i {}) with count := {} } } }) s
      else s
    done t ws

def execPcRead (c : Cmd) (s : State) : Res := .next (runCmd 0x0805 c s (pcReadAct c))

/-- RATE_CONFIG (R313, R324): the port's window begins anew. -/
def rateConfigAct (c : Cmd) (s : State) : State × Option Ans :=
  let w := wd c.words 1
  onPort c s fun p v =>
    if fld w 0 16 = 0 then fail s stBadParam
    else
      let n := fld w 0 16
      let b := s.time.beat.toNat
      done (s.setPort p
        { v with
            window := BitVec.ofNat 16 n, rateEn := bit w 16, ratePartial := true, rateValid := false
            rateRun := [0, 0, 0, 0], rateFirst := BitVec.ofNat 48 (b / n * n) })

def execRateConfig (c : Cmd) (s : State) : Res := .next (runCmd 0x0806 c s (rateConfigAct c))

/-- RATE_READ (R313, R324). -/
def rateReadAct (c : Cmd) (s : State) : State × Option Ans :=
  onPort c s fun _ v =>
    done s ([pack [(0, v.rateLatchWindow.toNat), (16, b2n v.rateValid)]] ++ wordsOf v.rateLatchFirst.toNat 2 ++
      (List.range 4).flatMap fun i => wordsOf (v.rateLatch.getD i 0).toNat 2)

def execRateRead (c : Cmd) (s : State) : Res := .next (runCmd 0x0807 c s (rateReadAct c))

/-- SAMPLE_CONFIG (R316, R325). -/
def sampleConfigAct (c : Cmd) (s : State) : State × Option Ans :=
  let w := wd c.words 1
  onPort c s fun p v =>
    if wd c.words 2 = 0 then fail s stBadParam
    else
      done ((s.setPort p
        { v with nMinus1 := w.extractLsb' 0 24, sampleEn := bit w 24, sampleRnd := bit w 25, frameNo := 0 }).modRegion
          (laneRegion p) fun g => { g with sampleLfsr := wd c.words 2, sampleSeed := wd c.words 2 })

def execSampleConfig (c : Cmd) (s : State) : Res := .next (runCmd 0x0808 c s (sampleConfigAct c))

/-- MIRROR_CONFIG (R318, R326). -/
def mirrorConfigAct (c : Cmd) (s : State) : State × Option Ans :=
  let k := fld (wd c.words 0) 0 4
  let w := wd c.words 1
  let n := fld (wd c.words 2) 0 14
  if n < 64 then fail s stBadParam
  else
    let m : Mirror :=
      { port := w.extractLsb' 0 10, queue := w.extractLsb' 10 4, enable := bit w 14, truncEn := bit w 15
        truncLen := BitVec.ofNat 14 n }
    done { s with tally := { s.tally with mirrors := tset s.tally.mirrors k {} m } }

def execMirrorConfig (c : Cmd) (s : State) : Res := .next (runCmd 0x0809 c s (mirrorConfigAct c))

end Sys2Proof.Machine
end

