-- ==== Sys2Proof/Machine/Boundary.lean ====
section
/-!
DEFINITION. A beat boundary (R264, R265, R274): thaws, dumps, the period switch, window latches, the start of an ageing
sweep, and the frames that a node of a parish sends at every beat (R414 to R416).
-/

namespace Sys2Proof.Machine

/-! ### Ports of the parish (R407 to R409) -/

/-- The UP upstream ports, and the child ports. -/
def State.upstreams (s : State) : List Nat :=
  (tkeys s.ports).filter fun p => s.hasUpstream = true ∧ ((s.port p).portRole = 1 ∨ (s.port p).portRole = 2) ∧ s.isUp p = true

/-- The ports configured as child ports, and those of a device that has any: a manager, a standby or a relay (Table 13-1). -/
def State.childPorts (s : State) : List Nat := (tkeys s.ports).filter fun p => (s.port p).portRole = 3

def State.hasChildren (s : State) : Bool := decide (1 ≤ s.parish.role.toNat) && decide (s.parish.role.toNat ≤ 3)

def State.children (s : State) : List Nat := if s.hasChildren then s.childPorts else []


/-- The node sends bell and activation frames on its child ports: a manager that is not deposed, or a relay in LOCKED or
HOLDOVER, above depth 4 (R408, R414, R427). -/
def State.sendsBells (s : State) : Bool :=
  (decide (s.parish.role = roleManager) && !s.parish.deposed) ||
  (decide (s.parish.role = roleRelay) && (decide (s.time.state = .locked) || decide (s.time.state = .holdover)) &&
    decide (s.parish.depth.toNat < 4))

/-- Bell frames on every child port. -/
def State.sendBells (s : State) : State :=
  if s.sendsBells then s.children.foldl (fun t p => t.sendMac p .bell) s else s

/-- The bitmap of a segment: the device's own bit and what its child ports delivered within the last 8 beats (R416). -/
def State.subtree (s : State) (seg : Nat) : BitVec 4096 :=
  let own : BitVec 4096 :=
    if s.hasRole ∧ s.parish.device.toNat / 4096 = seg then BitVec.ofNat 4096 (2 ^ (s.parish.device.toNat % 4096)) else 0
  s.parish.children.foldl
    (fun b e => if e.1 % 4 = seg ∧ s.time.beatRun ≤ e.2.beat + 8 then b ||| e.2.bits else b) own

/-- The bytes of a bitmap segment: device d is bit d mod 8 of byte d ÷ 8. -/
def bitmapBytes (b : BitVec 4096) : List Byte := (List.range 512).map fun i => b.extractLsb' (8 * i) 8

def bitmapOf (bs : List Byte) : BitVec 4096 := BitVec.ofNat 4096 (natOfBytes bs)

/-- MANAGER_SEEN of a HELLO sent now: the active upstream's last bell frame carried the highest MANAGER_GEN, in this beat or the one
before. -/
def State.managerSeen (s : State) : Bool :=
  let a := s.parish
  let last (g : Option (BitVec 16)) (b : Nat) : Bool :=
    decide (g = some a.managerGen) && decide (s.time.beatRun ≤ b + 1)
  match s.activeUp with
  | 1 => last a.primGen a.primBeat
  | 2 => last a.altGen a.altBeat
  | _ => false

/-- HELLO on every UP upstream port, one for each non-empty segment. -/
def State.sendHellos (s : State) : State :=
  s.upstreams.foldl
    (fun t p =>
      (List.range 4).foldl
        (fun u seg =>
          let b := u.subtree seg
          if b = 0 then u
          else u.queueRiwen p rwHello 0 ([BitVec.ofNat 8 seg, BitVec.ofNat 8 (b2n u.managerSeen), 0, 0] ++ bitmapBytes b)) t) s

/-- DELAY_REQ on every UP upstream port, every 16 beats (R415). -/
def State.sendDelayReqs (s : State) (old new : Nat) : State :=
  if crossed 16 old new && !s.upstreams.isEmpty then
    let n := s.parish.reqSeq + 1
    let t := { s with parish := { s.parish with
      reqSeq := n, reqOut := some (n, s.time.beatRun), reqOutAlt := some (n, s.time.beatRun) } }
    s.upstreams.foldl (fun u p => u.sendRiwen p rwDelayReq 0 (netBytes n.toNat 2 ++ List.replicate 18 0)) t
  else s

/-! ### The votes of a relay (R422) -/

/-- A bypass frame on the active upstream port. -/
def State.sendUp (s : State) (typ : Nat) (payload : List Byte) : State :=
  match s.upstream with
  | some p => s.sendRiwen p typ 0 payload
  | none => s

def State.setAct (s : State) (a : Option Activation) : State := { s with parish := { s.parish with act := a } }

/-- The payload of a VOTE frame. -/
def votePayload (e seg : Nat) (refused : Bool) (b : BitVec 4096) : List Byte :=
  netBytes e 2 ++ [BitVec.ofNat 8 seg, BitVec.ofNat 8 (b2n refused)] ++ bitmapBytes b

/-- One VOTE frame for each segment with a vote of a kind. -/
def State.sendVotes (s : State) (e : Nat) (refused : Bool) (t : Tab (BitVec 4096)) : State :=
  t.foldl (fun u (x : Nat × BitVec 4096) => if x.2 = 0 then u else u.sendUp rwVote (votePayload e x.1 refused x.2)) s

/-- A relay sends the votes of its subtree up (R422). -/
def State.relayVotes (s : State) (a : Activation) : State :=
  ((s.setAct (some { a with sent := true })).sendVotes a.epoch.toNat false a.prepared).sendVotes a.epoch.toNat true a.refused

/-- Every device of the subtree has voted. -/
def State.votesComplete (s : State) (a : Activation) : Bool :=
  (List.range 4).all fun g => decide (s.subtree g &&& ~~~ (tget a.prepared g 0 ||| tget a.refused g 0) = 0)

/-- A relay's votes go up as soon as they cover its subtree, which a HELLO or its ageing may change (R422). -/
def State.relayCheck (s : State) : State :=
  match s.parish.act with
  | some a => if s.parish.role = roleRelay ∧ a.sent = false ∧ s.votesComplete a = true then s.relayVotes a else s
  | none => s

/-! ### What falls due -/

/-- Puts an epoch behind those that thaw no later. -/
def insertThaw (x : Epoch) : List Epoch → List Epoch
  | [] => [x]
  | y :: ys => if y.thaw.toNat ≤ x.thaw.toNat then y :: insertThaw x ys else x :: y :: ys

/-- The scheduled epochs whose thaw has come, in beat order. -/
def State.thawDue (s : State) (new : Nat) : State :=
  let due := s.cif.epochs.filter fun x =>
    decide (x.state = .scheduled) && !x.prepared && decide (x.thaw.toNat ≤ new)
  (due.foldl (fun l x => insertThaw x l) []).foldl (fun t x => t.thawEpoch x.epoch.toNat x.thaw.toNat) s

/-- A sweep starts at every beat that AGE_PERIOD divides (R151). -/
def State.startSweep (s : State) (old new : Nat) (newGen : Bool) : State :=
  let n := s.tbl.agePeriod.toNat
  if n ≠ 0 ∧ (crossed n old new = true ∨ (newGen = true ∧ new % n = 0)) then { s with tbl := { s.tbl with sweep := some [] } }
  else s

/-- The bell frames' ACT_PHASE 2 ends at the thaw beat's boundary (R424); an abort that a take-over owes follows. -/
def State.endCommitPhase (s : State) (new : Nat) : State :=
  if s.parish.role = roleManager ∧ s.parish.actPhase = 2 ∧ s.parish.actBeat.toNat ≤ new then
    match s.parish.abortNext with
    | some e => { s with parish := { s.parish with actEpoch := e, actPhase := 3, actBeat := 0, abortNext := none } }
    | none => { s with parish := { s.parish with actPhase := 0 } }
  else s

/-- Everything that falls due at the one boundary that moves the beat from `old` to the beat now in force.
(DESIGN CHOICE: log entry 214.) -/
def State.fire (s : State) (old : Nat) (stepped newGen : Bool) : State :=
  let new := s.time.beat.toNat
  let s := { s with time := { s.time with beatRun := s.time.beatRun + 1 } }
  let s := s.telemetryBoundary old new stepped newGen
  let s := (s.thawDue new).startSweep old new newGen
  (((s.endCommitPhase new).relayCheck.sendBells.sendHellos).sendDelayReqs old new)

end Sys2Proof.Machine
end

