-- ==== Sys2Proof/Machine/Admission.lean ====
section
/-!
DEFINITION. Chapter 06: admission (R192 to R201, R212), refill (R204, R205), the glacier's pointer traffic (R208), and the
buffer commands (R216 to R224).
-/

namespace Sys2Proof.Machine

/-! ### Admission -/

/-- A packet refused at admission: tallied, or its host descriptor answered (R192, R360). -/
def State.refuse (s : State) (k : Pkt) (reason : Nat) : State :=
  let q := k.queueNo
  let s := s.perf { event := 0x034, addr := some q, cls := some k.cls.toNat }
  match k.hostTx with
  | some h => (s.emit (.txDone h.fn h.pos reason)).stampLost q k
  | none => s.dropOut k reason

/-- A lossless packet draws on the headroom (R200). -/
def State.lossless (s : State) (k : Pkt) : Bool :=
  match k.ingress with
  | none => false
  | some p =>
    let v := s.port p
    decide (v.fcMode ≠ 0) && v.lossless.getLsbD (v.prioOf k.qidx.toNat)

/-- The MAX_FRAME that a packet's frame is received under: that of its start while it is in reception (R76). -/
def State.inMax (s : State) (k : Pkt) (i : Nat) : Nat :=
  match (s.port i).rx with
  | some x => if x.pktId = k.root then x.maxFrame else (s.port i).maxFrame.toNat
  | none => (s.port i).maxFrame.toNat

/-- The cut-through conditions that are fixed at admission (R92); a port that is sending cannot grant the queue at once.
(DEDUCED: log entry 164.) -/
def State.ctFits (s : State) (k : Pkt) : Bool :=
  match k.ingress with
  | none => false
  | some i =>
    let a := s.port i
    let e := s.port (k.egress.getD 0)
    let x := s.queue k.queueNo
    a.ctEnable && e.ctEnable && decide (e.speed ≤ a.speed) &&
      decide ((s.inMax k i : Int) + k.delta ≤ e.maxFrame.toNat) && decide (k.qidx.toNat < 12) &&
      e.tx.isNone && x.granary.isEmpty && x.glacier.isEmpty && !k.hv.lengthPending

/-- The outcome of the pool tests of R192 for `n` cells: the charge, whether shared cells were needed, and whether
the shared pool refused them. -/
def State.poolTest (s : State) (q : Nat) (k : Pkt) (n : Nat) : Option Charge × Bool × Bool :=
  let x := s.queue q
  let v := s.port (queuePort q)
  let g := s.region (queueRegion q)
  let a := min n (x.reserve.toNat - x.reserveUsed)
  let b := min (n - a) (v.portReserve.toNat - v.portUsed)
  let sh := n - a - b
  let free := s.sharedFree (queueRegion q)
  if sh = 0 then (some { queue := a, port := b }, false, false)
  else if sh ≤ free ∧ dtOk x.sharedHeld sh free x.alpha.toNat = true then
    (some { queue := a, port := b, shared := sh }, true, false)
  else if s.lossless k = true ∧ sh ≤ g.headroom.toNat - g.headroomUsed then
    (some { queue := a, port := b, headroom := sh }, true, true)
  else (none, true, true)

/-- BUF_SHARED_EXHAUSTED, at most once per beat (R195). -/
def State.exhausted (s : State) (r : Nat) : State :=
  let b := s.time.beatRun
  if (s.region r).exhaustBeat = some b then s
  else (s.modRegion r fun g => { g with exhaustBeat := some b }).raise (1 + r) 0x0501 [word r]

/-- The spill of a packet, with the drop that Table 6-3 gives where it cannot be made; a packet that meets too little
credit while its queue is not spilling is left to `own`. The answer is whether it needed shared cells. -/
def State.trySpill (s : State) (q : Nat) (k : Pkt) (own : State → State × Bool) : State × Bool :=
  let on := (s.queue q).spilling
  let r := s.spill q k
  match r.2 with
  | .made => (r.1, false)
  | .quota => (r.1.refuse k rsQuota, false)
  | .full => (r.1.refuse k rsGlacierFull, false)
  | .credit => if on then (r.1.refuse k rsGlacierFull, false) else own r.1

/-- Admission of one packet to its queue (R192); the answer is whether it needed shared cells. -/
def State.enterPacket (s : State) (k : Pkt) : State × Bool :=
  let q := k.queueNo
  let p := queuePort q
  let r := queueRegion q
  if s.isUp p = false then (s.refuse k rsPortDown, false)
  else if k.known = true ∧ (s.port p).maxFrame.toNat < k.edited then
    let r := s.dropReason k rsOversize
    ((r.2.mac p 68).refuse k r.1, false)
  else
    let k : Pkt := { k with ct := s.ctFits k }
    let s := s.modQueue q fun x => { x with avg := x.nextAvg }
    let x := s.queue q
    let n := cellsOf k.len
    if x.spilling then s.trySpill q k fun t => (t.refuse k rsGlacierFull, false)
    else
      let prof := x.wredOf k.colour
      let w := wredDecide (tget (s.region r).wred prof {}) prof x.avg.toNat ((s.region r).lfsr.toNat % 65536) k.isEct
      if w = 1 then (s.refuse k rsWred, false)
      else
        let mark := decide (w = 2)
        let k : Pkt := { k with ecnMark := k.ecnMark || mark }
        let s := if mark then s.modQueue q fun x => { x with ecnMarked := x.ecnMarked.add 1 } else s
        let t := s.poolTest q k n
        let told (u : State) : State := if t.2.2 then u.exhausted r else u
        if x.spillEn = true ∧ x.spillThresh.toNat < x.grDepth + n then
          -- the granary takes it only where the spill fails for want of credit
          s.trySpill q k fun u =>
            match t.1 with
            | some c => ((told u).link q k c, t.2.1)
            | none => ((told u).refuse k rsBufferExhausted, t.2.1)
        else
          let s := told s
          match t.1 with
          | some c => (s.link q k c, t.2.1)
          | none =>
            if x.spillEn then ((s.trySpill q k fun u => (u.refuse k rsBufferExhausted, true)).1, t.2.1)
            else (s.refuse k rsBufferExhausted, t.2.1)

/-- Queue numbers in the order of a round-robin pointer (R194). -/
def rrOrder (ptr : Nat) (qs : List Nat) : List Nat :=
  let u := sortNat qs.eraseDups
  u.filter (fun q => decide (ptr ≤ q)) ++ u.filter (fun q => decide (q < ptr))

/-- The pointer after the last queue that needed shared cells. -/
def nextPtr (q : Nat) : Nat := (q + 1) % 16384

/-- The packets of one rank, queue by queue; the answer is the rank's pointer. -/
def State.admitRank (s : State) (ptr : Nat) (ks : List Pkt) : State × Nat :=
  (rrOrder ptr (ks.map (·.queueNo))).foldl
    (fun a q =>
      (ks.filter fun k => decide (k.queueNo = q)).foldl
        (fun a k =>
          let r := a.1.enterPacket k
          (r.1, if r.2 then nextPtr q else a.2)) a) (s, ptr)

/-- Of the packets for a region, oldest first, those that `here` picks and that no earlier one of the same ingress port block still
precedes: each block has one path to the region, which keeps order (R7, R30). -/
def inTurn (here : Pkt → Bool) : List (Option Nat) → List Pkt → List Pkt
  | _, [] => []
  | shut, k :: ks =>
    let b := k.ingress.map laneBlock
    if shut.contains b then inTurn here shut ks
    else if here k then k :: inTurn here shut ks
    else inTurn here (b :: shut) ks

/-- The packets that reach a region's allocator in one GCLK cycle (R194). The WRED LFSR has run on by a number of
cycles that the model does not know. -/
def execAdmission (region : Nat) (pkts : List Nat) (s : State) : Res :=
  onNum (decide (region < 4))
    (let ks := inTurn (fun k => pkts.contains k.id) [] (s.arrivals.filter fun k => decide (queueRegion k.queueNo = region))
     if ks.isEmpty then s
     else
      let s := (s.readLinks region).stateMeets region [.allocatorCount, .counterCopy]
      let s := { s with arrivals := s.arrivals.filter fun k => !(ks.contains k) }
      let f := s.fresh
      let s := f.2.modRegion region fun g => { g with lfsr := lfsrRun f.1 g.lfsr }
      let e := s.admitRank (s.region region).ptrExpress (ks.filter fun k => isExpress k.queueNo)
      let s := e.1.modRegion region fun g => { g with ptrExpress := e.2 }
      let o := s.admitRank (s.region region).ptrOrdinary (ks.filter fun k => !(isExpress k.queueNo))
      o.1.modRegion region fun g => { g with ptrOrdinary := o.2 })

/-! ### Refill -/

/-- Drops the packets at the head of a glacier segment that are older than LIFETIME (R205). -/
def State.expireGlacier (s : State) (q : Nat) : List Pkt → State
  | [] => s
  | k :: ks =>
    if s.expired q k = false then s
    else if s.descStruck q k then s.descLost q 0 k
    else
      ((((s.modQueue q fun x => { x with glacier := ks }).dropQueued q k rsLifetime).endSpill q)).expireGlacier q ks

/-- The refill request of one queue (R204, R211); the answer is whether it needed shared cells. -/
def State.refillOne (s : State) (q : Nat) : State × Bool :=
  let r := queueRegion q
  let d := regionDie r
  if s.isUp (queuePort q) = false ∨ (s.queue q).refillTarget.toNat ≤ (s.queue q).grDepth then (s, false)
  else
    let s := (s.expireGlacier q (s.queue q).glacier).raiseCredit d
    match (s.queue q).glacier with
    | [] => (s, false)
    | k :: ks =>
      let s := s.readLinks r
      let g := s.region r
      let n := cellsOf k.len
      let a := min n (g.refillReserve.toNat - g.refillUsed)
      let sh := n - a
      if (s.glacier d).refillCredit < k.len then (s, false)
      else if s.sharedFree r < sh then (s, true)
      else if s.descStruck q k then (s.descLost q 0 k, false)
      else
        let s := s.modGlacier d fun g => { g with refillCredit := g.refillCredit - k.len }
        let s := (s.modQueue q fun x => { x with glacier := ks }).endSpill q
        let s := s.perf { event := 0x036, addr := some q, cls := some k.cls.toNat }
        (s.link q { k with refilling := true } { refill := a, shared := sh }, decide (0 < sh))

/-- The refill requests of one GCLK cycle (R194, R204). -/
def execRefillRequest (region : Nat) (queues : List Nat) (s : State) : Res :=
  onNum (decide (region < 4))
    (let qs := queues.filter fun q => decide (queueRegion q = region)
     let r := (rrOrder (s.region region).ptrRefill qs).foldl
      (fun a q =>
        let x := a.1.refillOne q
        (x.1, if x.2 then nextPtr q else a.2)) (s, (s.region region).ptrRefill)
     r.1.modRegion region fun g => { g with ptrRefill := r.2 })

/-- The words of a refilled block are read: a pattern that waits in the stack decides with what the row tells of them; a single-bit
error, of a block word or of a descriptor word, is corrected and written back (R379, R400). The answer is whether the packet is
lost. -/
def State.readBlock (s : State) (queue : Nat) (k : Pkt) (read : BlockRead) : State × Bool :=
  let d := regionDie (queueRegion queue)
  let b := (k.block.map Prod.snd).getD 0
  let stack := blockStack d b
  if read = .uncorrectable then
    ((s.eccReal [dGlacierCe, dGlacierData] dGlacierData stack b).detectRecover dGlacierData stack b 1 1 true, true)
  else
  let x := s.eccMeets dGlacierCe dGlacierData dGlacierDesc stack (some b)
  let lost := match x.2 with | some (n, _) => decide (2 ≤ n) | none => false
  if lost then (x.1.detectRecover dGlacierData stack b 1 1 true, true)
  else if read = .corrected ∨ x.2.isSome = true then (x.1.detect dGlacierCe stack b false, false)
  else (x.1, false)

/-- A refilled packet's data arrives and its block is freed; an uncorrectable error discards the packet (R214, R215).
(DEDUCED: log entry 88.) -/
def execRefillDataArrived (queue : Nat) (read : BlockRead) (s : State) : Res :=
  onNum (decide (queue < 16384))
    (match (s.queue queue).granary.find? (·.refilling), (s.port (queuePort queue)).tx with
      | some k, _ =>
        let r := (s.giveBlock queue k).readBlock queue k read
        let k' : Pkt := { k with refilling := false, block := none }
        if r.2 then (r.1.pullPkt (.granary queue) k).dropQueued queue k' rsFaultDiscard
        else
          let x := r.1.fill queue k'
          x.1.putPkt (.granary queue) x.2
      | none, some x =>
        if x.pkt.refilling ∧ x.qidx = queueIdx queue then
          let r := (s.giveBlock queue x.pkt).readBlock queue x.pkt read
          let y := r.1.fill queue
            { x.pkt with
                refilling := false, block := none
                badEnd := if r.2 then some (BitVec.ofNat 8 rsFaultDiscard) else x.pkt.badEnd }
          y.1.putPkt (.sending (queuePort queue)) y.2
        else s
      | none, none => s)

/-! ### The pointer cache (R208) -/

/-- Changes a pool that exists. -/
def onPool (die pool : Nat) (s : State) (f : Pool → Pool) : Res :=
  onNum (decide (die < 2) && decide (pool < 4))
    (s.modGlacier die fun g => g.setPool pool (f (g.pool pool)))

/-- A fetch of up to 2,048 pointers from the stack completes. -/
def execPointerFetchDone (die pool : Nat) (s : State) : Res :=
  onPool die pool s fun p =>
    if p.fetching then
      let n := min 2048 p.stack
      let level := p.cache + n - p.owed
      { p with
          cache := level, stack := p.stack - n, owed := p.owed - (p.cache + n)
          fetching := decide (level < 1024) && decide (n < p.stack) }
    else p

/-- A write of 2,048 pointers to the stack completes. -/
def execPointerWritebackDone (die pool : Nat) (s : State) : Res :=
  onPool die pool s fun p =>
    if p.writing then { p with writing := false, cache := p.cache - 2048, stack := p.stack + min 2048 p.cache } else p

/-! ### Buffer commands -/

/-- Cells of a queue's packets that move from a lowered reserve to the shared pool, newest packet first (R191): `take`
picks the part of a charge that moves, `n` says how many cells are too many. (DEDUCED: log entry 78.) -/
def convertCharges (take : Charge → Nat) (conv : Charge → Nat → Charge) : Nat → List Pkt → Nat × List Pkt
  | n, [] => (n, [])
  | n, k :: ks =>
    let r := convertCharges take conv n ks
    let m := min r.1 (take k.charge)
    (r.1 - m, { k with charge := conv k.charge m } :: r.2)

/-- Moves `n` cells of one kind of charge to the shared pool over a list of queues; answers what is left. -/
def State.convert (s : State) (qs : List Nat) (take : Charge → Nat) (conv : Charge → Nat → Charge)
    (cut : Queue → Nat → Queue) (n : Nat) : State × Nat :=
  qs.foldl
    (fun a q =>
      let x := a.1.queue q
      let r := convertCharges take conv a.2 x.granary
      let done := a.2 - r.1
      let s := a.1.setQueue q { cut x done with granary := r.2, sharedHeld := x.sharedHeld + done }
      let p := queuePort q
      let t := match (s.port p).tx with
        | some y =>
          if y.qidx = queueIdx q then
            let r2 := convertCharges take conv r.1 [y.pkt]
            let d2 := r.1 - r2.1
            let s := s.modQueue q fun x => { cut x d2 with sharedHeld := x.sharedHeld + d2 }
            ((s.putPkt (.sending p) (r2.2.headD y.pkt)).modRegion (queueRegion q) fun g =>
              { g with sharedUsed := g.sharedUsed + d2 }, r2.1)
          else (s, r.1)
        | none => (s, r.1)
      (t.1.modRegion (queueRegion q) fun g => { g with sharedUsed := g.sharedUsed + done }, t.2)) (s, n)

/-- The queues of a region's configured ports. -/
def State.regionQueues (s : State) (r : Nat) : List Nat := (s.regionPorts r).flatMap portQueues

/-- A lowered queue reserve. -/
def State.trimQueue (s : State) (q : Nat) : State :=
  let x := s.queue q
  (s.convert [q] (·.queue) (fun c m => { c with queue := c.queue - m, shared := c.shared + m })
    (fun x m => { x with reserveUsed := x.reserveUsed - m }) (x.reserveUsed - x.reserve.toNat)).1

/-- A lowered port reserve. -/
def State.trimPort (s : State) (p : Nat) : State :=
  let v := s.port p
  let n := v.portUsed - v.portReserve.toNat
  let r := s.convert (portQueues p) (·.port) (fun c m => { c with port := c.port - m, shared := c.shared + m })
    (fun x _ => x) n
  r.1.modPort p fun v => { v with portUsed := v.portUsed - (n - r.2) }

/-- A lowered refill reserve, and a lowered headroom. -/
def State.trimRegion (s : State) (r : Nat) : State :=
  let g := s.region r
  let n := g.refillUsed - g.refillReserve.toNat
  let a := s.convert (s.regionQueues r) (·.refill)
    (fun c m => { c with refill := c.refill - m, shared := c.shared + m }) (fun x _ => x) n
  let s := a.1.modRegion r fun g => { g with refillUsed := g.refillUsed - (n - a.2) }
  let m := g.headroomUsed - g.headroom.toNat
  let b := s.convert (s.regionQueues r) (·.headroom)
    (fun c m => { c with headroom := c.headroom - m, shared := c.shared + m }) (fun x _ => x) m
  b.1.modRegion r fun g => { g with headroomUsed := g.headroomUsed - (m - b.2) }

/-- BUF_REGION_CONFIG (R189 to R191, R217). -/
def bufRegionConfigAct (c : Cmd) (s : State) : State × Option Ans :=
  let r := fld (wd c.words 0) 0 2
  let refill := fld (wd c.words 1) 0 16
  let head := fld (wd c.words 2) 0 16
  if refill = 0 ∨ 32768 < refill ∨ wd c.words 3 = 0 then fail s stBadParam
  else
    let t := s.modRegion r fun g =>
      { g with refillReserve := BitVec.ofNat 16 refill, headroom := BitVec.ofNat 16 head, lfsr := wd c.words 3, seed := wd c.words 3 }
    if t.sharedSize r < 0 then fail s stBadParam else done (t.trimRegion r)

def execBufRegionConfig (c : Cmd) (s : State) : Res := .next (runCmd 0x0501 c s (bufRegionConfigAct c))

/-- BUF_PORT_CONFIG (R189, R199, R218). -/
def bufPortConfigAct (c : Cmd) (s : State) : State × Option Ans :=
  onPort c s fun p v =>
    let xoff := fld (wd c.words 2) 0 20
    let xon := fld (wd c.words 3) 0 20
    if xoff = 0 ∨ xoff ≤ xon then fail s stBadParam
    else
      let t := s.setPort p
        { v with
            portReserve := BitVec.ofNat 14 (fld (wd c.words 1) 0 14), lossless := BitVec.ofNat 8 (fld (wd c.words 1) 16 8)
            xoffTh := BitVec.ofNat 20 xoff, xonTh := BitVec.ofNat 20 xon }
      if t.sharedSize (laneRegion p) < 0 then fail s stBadParam else done ((t.trimPort p).xoffAll p)

def execBufPortConfig (c : Cmd) (s : State) : Res := .next (runCmd 0x0502 c s (bufPortConfigAct c))

/-- The queue that word 0 names, with a command on it; NOT_FOUND where its port is not configured (R17). -/
def onQueue (c : Cmd) (s : State) (f : Nat → Queue → State × Option Ans) : State × Option Ans :=
  let q := fld (wd c.words 0) 0 14
  if s.hasPort (queuePort q) then f q (s.queue q) else fail s stNotFound

/-- BUF_QUEUE_CONFIG (R189, R190, R219). -/
def bufQueueConfigAct (c : Cmd) (s : State) : State × Option Ans :=
  onQueue c s fun q x =>
    let w1 := wd c.words 1
    let w3 := wd c.words 3
    let w4 := wd c.words 4
    let res := fld w1 0 12
    let alpha := fld w1 12 4
    let th := fld (wd c.words 2) 0 20
    let tgt := fld w3 0 16
    let life := fld w3 16 15
    if res = 0 ∨ 9 < alpha ∨ th < 64 ∨ 327680 < th ∨ tgt < 64 ∨ 16384 < tgt ∨ th < tgt ∨ life = 0 ∨ 20000 < life then
      fail s stBadParam
    else
      let t := s.setQueue q
        { x with
            reserve := BitVec.ofNat 12 res, alpha := BitVec.ofNat 4 alpha, spillEn := bit w1 16
            spillThresh := BitVec.ofNat 20 th, refillTarget := BitVec.ofNat 16 tgt, lifetime := BitVec.ofNat 15 life
            wredGreen := BitVec.ofNat 6 (fld w4 0 6), wredYellow := BitVec.ofNat 6 (fld w4 8 6)
            wredRed := BitVec.ofNat 6 (fld w4 16 6), wredW := BitVec.ofNat 4 (fld w4 24 4) }
      if t.sharedSize (queueRegion q) < 0 then fail s stBadParam else done (t.trimQueue q)

def execBufQueueConfig (c : Cmd) (s : State) : Res := .next (runCmd 0x0503 c s (bufQueueConfigAct c))

/-- WRED_PROFILE_WRITE (R220). -/
def wredProfileWriteAct (c : Cmd) (s : State) : State × Option Ans :=
  let i := fld (wd c.words 0) 0 6
  let m := BitVec.ofNat 4 (fld (wd c.words 0) 16 4)
  let lo := fld (wd c.words 1) 0 24
  let hi := fld (wd c.words 2) 0 24
  let w3 := wd c.words 3
  if i = 0 ∨ m = 0 ∨ hi < lo ∨ 256 < fld w3 0 9 then fail s stBadParam
  else
    let w : Wred :=
      { minTh := BitVec.ofNat 24 lo, maxTh := BitVec.ofNat 24 hi, maxP := BitVec.ofNat 9 (fld w3 0 9), ecn := bit w3 9
        ecnOver := bit w3 10 }
    done ((maskRegions m).foldl (fun t r => t.modRegion r fun g => { g with wred := tset g.wred i {} w }) s)

def execWredProfileWrite (c : Cmd) (s : State) : Res := .next (runCmd 0x0504 c s (wredProfileWriteAct c))

/-- GLACIER_QUOTA_CONFIG (R221). -/
def glacierQuotaConfigAct (c : Cmd) (s : State) : State × Option Ans :=
  let who := 2 * fld (wd c.words 0) 0 2 + fld (wd c.words 0) 2 1
  let res := fld (wd c.words 1) 0 15
  let lim := fld (wd c.words 2) 0 15
  if res = 0 ∨ 5596 < res ∨ lim < res ∨ 22384 < lim then fail s stBadParam
  else
    done { s with
      quotas := tset s.quotas who {} { s.quota who with reserve := BitVec.ofNat 15 res, limit := BitVec.ofNat 15 lim } }

def execGlacierQuotaConfig (c : Cmd) (s : State) : Res := .next (runCmd 0x0505 c s (glacierQuotaConfigAct c))

/-- Cells in the 256 cell lists of a region. -/
def State.freeCellsOf (s : State) (r : Nat) : Nat := 327680 - (s.region r).drawn.length

/-- BUF_REGION_STATUS (R222). -/
def bufRegionStatusAct (c : Cmd) (s : State) : State × Option Ans :=
  let r := fld (wd c.words 0) 0 2
  let g := s.region r
  done s [word (s.freeCellsOf r), word (s.sharedSize r).toNat, word g.sharedUsed, word g.headroomUsed, word g.refillUsed]

def execBufRegionStatus (c : Cmd) (s : State) : Res := .next (runCmd 0x0506 c s (bufRegionStatusAct c))

/-- A 48-bit count in two words, with its sticky bit in bit 31 of the second (R127, R223). -/
def C48.stickyWords (c : C48) : List Word := wordsOf (c.val.toNat + b2n c.sticky * 2 ^ 63) 2

/-- QUEUE_STATUS (R223). (DEDUCED: log entry 82.) -/
def queueStatusAct (c : Cmd) (s : State) : State × Option Ans :=
  onQueue c s fun q x =>
    let ws := [pack [(0, x.grDepth), (20, b2n x.spilling)], word x.sharedHeld, word x.glacier.length, word x.glCells,
      x.avg, word x.peak.toNat] ++ x.spilled.stickyWords ++ x.ecnMarked.stickyWords
    done
      (if bit (wd c.words 0) 31 then
        s.setQueue q { x with peak := 0, spilled := {}, ecnMarked := {} }
      else s) ws

def execQueueStatus (c : Cmd) (s : State) : Res := .next (runCmd 0x0507 c s (queueStatusAct c))

/-- BUF_GLACIER_STATUS (R224). -/
def bufGlacierStatusAct (c : Cmd) (s : State) : State × Option Ans :=
  let d := fld (wd c.words 0) 0 1
  let g := s.glacier d
  let cap := s.glShared d
  done s
    (((List.range 4).map fun i => word (g.pool i).free) ++ ((List.range 4).map fun i => word (g.pool i).cache) ++
      ((List.range 4).map fun j => word (ceilDiv (s.quota (4 * d + j)).used mib)) ++
      [word g.doubleFrees.toNat, word ((cap.1 - cap.2) / mib)])

def execBufGlacierStatus (c : Cmd) (s : State) : Res := .next (runCmd 0x0508 c s (bufGlacierStatusAct c))

end Sys2Proof.Machine
end

