-- ==== Sys2Proof/Machine/Egress.lean ====
section
/-!
DEFINITION. The egress edit (R163, R198) and the time gates as functions of the time base (R235 to R243).
-/

namespace Sys2Proof.Machine

/-! ### The egress edit -/

/-- Overwrites bytes from an offset. -/
def overwrite (bs : List Byte) (o : Nat) (v : List Byte) : List Byte := bs.take o ++ v ++ bs.drop (o + v.length)

/-- An incremental checksum update: a 16-bit word `m` becomes `m'`. -/
def sumUpdate (hc m m' : Nat) : Nat :=
  let t := (0xFFFF - hc) + (0xFFFF - m) + m'
  let t := t % 65536 + t / 65536
  0xFFFF - (t % 65536 + t / 65536)

/-- Replaces a 16-bit word of an IPv4 header at `h` and updates its checksum. -/
def ip4Put (bs : List Byte) (h o v : Nat) : List Byte :=
  let m := netAt bs (h + o) 2
  let bs := overwrite bs (h + o) (netBytes v 2)
  overwrite bs (h + 10) (netBytes (sumUpdate (netAt bs (h + 10) 2) m v) 2)

/-- TTL_DEC on the packet's IP header. -/
def decTtl (bs : List Byte) (x : HdrSlot) : List Byte :=
  if x.htype = 0x03 then ip4Put bs x.offset 8 (netAt bs (x.offset + 8) 2 - 256)
  else overwrite bs (x.offset + 7) [byteAt bs (x.offset + 7) - 1]

/-- CE in the packet's IP header (R198). -/
def markCe (bs : List Byte) (x : HdrSlot) : List Byte :=
  if x.htype = 0x03 then ip4Put bs x.offset 0 (netAt bs x.offset 2 ||| 3)
  else overwrite bs (x.offset + 1) [byteAt bs (x.offset + 1) ||| 0x30]

/-- The outer tag is 0x8100 or 0x88A8. -/
def tagged (bs : List Byte) : Bool := decide (netAt bs 12 2 = 0x8100) || decide (netAt bs 12 2 = 0x88A8)

/-- VLAN_OP on a frame; the words count from word 2 of the record. -/
def vlanEdit (ws : List Word) (bs : List Byte) : List Byte :=
  let tag := netBytes (fld (wd ws 5) 16 16) 2 ++ netBytes (fld (wd ws 5) 0 16) 2
  let push := bs.take 12 ++ tag ++ bs.drop 12
  match editVlanOp ws with
  | 1 => push
  | 2 => if tagged bs then overwrite bs 12 tag else push
  | 3 => if tagged bs then bs.take 12 ++ bs.drop 16 else bs
  | _ => bs

/-- The record's DA or SA in network order (R18). -/
def editMac (ws : List Word) (i : Nat) : List Byte := bytesOf ((wd ws i).toNat + fld (wd ws (i + 1)) 0 16 * 2 ^ 32) 6

/-- The 50 bytes of VXLAN_ENCAP before a frame of `n` bytes (R163). -/
def vxlanHead (ws : List Word) (flow : BitVec 32) (n : Nat) : List Byte :=
  let ip0 := [0x45, BitVec.ofNat 8 (fld (wd ws 9) 8 8)] ++ netBytes (36 + n) 2 ++ [0, 0, 0x40, 0] ++
    [BitVec.ofNat 8 (fld (wd ws 9) 0 8), 17, 0, 0] ++ bytesOf (wd ws 7).toNat 4 ++ bytesOf (wd ws 8).toNat 4
  let ip := overwrite ip0 10 (netBytes (0xFFFF - onesSum ip0) 2)
  editMac ws 1 ++ editMac ws 3 ++ [0x08, 0x00] ++ ip ++
    netBytes (49152 + flow.toNat % 16384) 2 ++ netBytes 4789 2 ++ netBytes (16 + n) 2 ++ [0, 0] ++
    [0x08, 0, 0, 0] ++ netBytes (fld (wd ws 6) 0 24) 3 ++ [0]

/-- The frame's bytes after the edit of its record, without the FCS, padded to 60 (R163). (DEDUCED: log entry 63.) -/
def State.editFrame (s : State) (k : Pkt) : List Byte :=
  let bs := match k.hv.ip with | some x => if k.ecnMark then markCe k.data x else k.data | none => k.data
  let bs := match k.edit.bind (tget? s.tbl.edits ·) with
    | none => bs
    | some o =>
      let ws := o.words
      let bs := match k.hv.ip with | some x => if editTtlDec ws then decTtl bs x else bs | none => bs
      if editVxlan ws then
        let inner := vlanEdit ws bs
        vxlanHead ws k.flow inner.length ++ inner
      else
        let bs := if editSetDa ws then overwrite bs 0 (editMac ws 1) else bs
        let bs := if editSetSa ws then overwrite bs 6 (editMac ws 3) else bs
        vlanEdit ws bs
  bs ++ List.replicate (60 - bs.length) 0

/-! ### Gate lists -/

/-- The entries of a bank in use. -/
def Gates.entries (g : Gates) (bank : Bool) (n : Nat) : List GateEntry :=
  (List.range n).map fun i => tget (if bank then g.bank1 else g.bank0) i {}

/-- A stretch of a cycle: its entry, its start and end within the cycle, and its gate states. -/
structure Stretch where
  entry  : Nat
  start  : Nat
  stop   : Nat
  states : BitVec 16
  deriving DecidableEq, Repr

/-- The stretches of a cycle (R236): the entries in turn, cut at the cycle's end, the last one up to it. -/
def stretches (ct : Nat) : Nat → Nat → List GateEntry → List Stretch
  | _, _, [] => []
  | i, o, [e] => if o < ct then [{ entry := i, start := o, stop := ct, states := e.states }] else []
  | i, o, e :: es =>
    if ct ≤ o then []
    else
      { entry := i, start := o, stop := min ct (o + e.interval.toNat), states := e.states } ::
        stretches ct (i + 1) (o + e.interval.toNat) es

/-- The start of the cycle that an instant lies in, for a list taken over at `a`. -/
def cycleStart (a ct t : Nat) : Nat := ((t : Int) - ((t : Int) - (a : Int)) % (ct : Int)).toNat

/-- A list as a schedule: its take-over instant, its cycle time, its stretches. -/
structure Schedule where
  a  : Nat
  ct : Nat
  l  : List Stretch
  deriving DecidableEq, Repr

/-- The operational list's schedule, once a list has taken over. -/
def Gates.schedule (g : Gates) : Option Schedule :=
  if g.listActive then
    some { a := g.operStart, ct := g.operCycle, l := stretches g.operCycle 0 0 (g.entries g.operBank g.operCount) }
  else none

/-- The schedule that a pending take-over brings. -/
def Gates.nextSchedule (g : Gates) (t : Takeover) : Schedule :=
  { a := t.at_, ct := t.cycle, l := stretches t.cycle 0 0 (g.entries (!g.operBank) t.count) }

/-- The stretch in force at an instant. -/
def Schedule.at_ (x : Schedule) (t : Nat) : Option Stretch :=
  x.l.find? fun e => decide (t - cycleStart x.a x.ct t < e.stop)

/-- The gate states at an instant: all open while gates are off or no list has taken over (R235).
(DEDUCED: log entry 87.) -/
def Gates.statesAt (g : Gates) (t : Nat) : BitVec 16 :=
  if g.en then
    match g.schedule with
    | some x => match x.at_ t with | some e => e.states | none => 0xFFFF
    | none => 0xFFFF
  else 0xFFFF

/-- The first instant after `t` at which a schedule closes a gate; none where it stays open. -/
def Schedule.close (x : Schedule) (q t : Nat) : Option Nat :=
  let c := cycleStart x.a x.ct t
  let rest := (x.l.filter fun e => decide (t < c + e.stop)).map fun e => (c + e.start, e.states)
  let again := x.l.map fun e => (c + x.ct + e.start, e.states)
  ((rest ++ again).find? fun e => !(e.2.getLsbD q)).map fun e => max t e.1

/-- The close instant of a queue's gate at `t` (R240). -/
def Gates.close (g : Gates) (q t : Nat) : Option Nat :=
  if g.en = false then none
  else
    let now := g.schedule.bind fun x => x.close q t
    match g.pending with
    | none => now
    | some p =>
      match now with
      | some c => if c < p.at_ then some c else (g.nextSchedule p).close q (max t p.at_)
      | none => (g.nextSchedule p).close q (max t p.at_)

/-- The longest time that a schedule keeps a gate open without a break, over two cycles; none where it never closes. -/
def Schedule.window (x : Schedule) (q : Nat) : Option Nat :=
  if x.l.all fun e => e.states.getLsbD q then none
  else
    some (((x.l ++ x.l).foldl
      (fun a e =>
        if e.states.getLsbD q then let n := a.2 + (e.stop - e.start); (max a.1 n, n) else (a.1, 0)) (0, 0)).1)

/-- The occupancy of a frame of this edited length, in picoseconds (R228). -/
def Port.occupancy (v : Port) (len : Nat) : Nat := (len + 20) * v.bytePs

/-- The guard band in nanoseconds (R241). -/
def Port.guard (v : Port) : Nat :=
  if v.guardBand = 0 then ceilDiv ((v.maxFrame.toNat + 20) * v.bytePs) 1000 else v.guardBand.toNat

/-- The gate of a queue is open and its tier's test passes for a frame (R241, R242). -/
def Port.gateOk (v : Port) (t : Time) (i len : Nat) : Bool :=
  (v.gates.statesAt t.ns).getLsbD i &&
    match v.gates.close i t.ns with
    | none => true
    | some c =>
      if 12 ≤ i then decide (t.ps + v.occupancy len ≤ c * 1000) else decide (t.ps + v.guard * 1000 < c * 1000)

/-- The head can leave by no window of the operational list (R243). -/
def Port.neverFits (v : Port) (i len : Nat) : Bool :=
  v.gates.en &&
    match v.gates.schedule.bind fun x => x.window i with
    | none => false
    | some w => decide (w * 1000 < v.occupancy len)

end Sys2Proof.Machine
end

