-- ==== Sys2Proof/Machine/Sched.lean ====
section
/-!
DEFINITION. Chapter 07: selection and the end of a transmission (R226 to R233, R94 to R97, R213, R214), the drain of a port,
the shaper and meter ticks, the gate rows, queue samples, and the scheduling and policing commands (R251 to R260).
-/

namespace Sys2Proof.Machine

/-! ### Eligibility -/

/-- A priority of the queue is paused (R83, R84). -/
def Port.queuePaused (v : Port) (t : Time) (i : Nat) : Bool := decide (v.fcMode ≠ 0) && v.paused t (v.prioOf i)

/-- A shaper lets a frame go. -/
def Shaper.ok (x : Shaper) : Bool := !x.en || decide (0 ≤ x.credit)

/-- Enough of a head packet is in the granary (R92, R93); `some_` tells of a packet not wholly there that enough of it is. -/
def Port.ready (v : Port) (k : Pkt) (some_ : Bool) : Bool :=
  if k.known ∧ k.refilling = false then true
  else
    (k.known || (k.ct && !k.hv.lengthPending && decide (k.edited ≤ v.maxFrame.toNat))) && decide (v.ctThresh.toNat < 64) &&
      decide (v.ctThresh.toNat < cellsOf k.len) &&
      (some_ || (!k.refilling && decide (v.ctThresh.toNat ≤ k.data.length / 256)))

/-- The head can leave by no window (R243): by its length, or for the shortest frame while its length is not known. -/
def Port.stuck (v : Port) (i : Nat) (k : Pkt) : Bool := v.neverFits i (if k.known then k.edited else 64)

/-- The queue may send its head now, but for how much of it is there (R226). -/
def State.open_ (s : State) (p i : Nat) (k : Pkt) : Bool :=
  let v := s.port p
  let x := s.queue (16 * p + i)
  !v.queuePaused s.time i && x.shaper.ok && v.shaper.ok && v.gateOk s.time i k.edited && !v.stuck i k

/-- The queue is eligible now (R226). -/
def State.eligible (s : State) (p i : Nat) (some_ : Bool) : Bool :=
  match (s.queue (16 * p + i)).granary with
  | [] => false
  | k :: _ => (s.port p).ready k some_ && s.open_ p i k

/-- Tag `a` comes before tag `b` (R231). -/
def tagBefore (a b : BitVec 32) : Bool := (a - b).getLsbD 31

/-- The queue index with the first head tag; equal tags go to the lower index (R227). -/
def State.firstTag (s : State) (p : Nat) (is : List Nat) : Option Nat :=
  is.foldl
    (fun a i =>
      match a with
      | none => some i
      | some j =>
        if tagBefore ((s.queue (16 * p + i)).headF.getD 0) ((s.queue (16 * p + j)).headF.getD 0) then some i else some j)
    none

/-- The queue that the scheduler selects; bit `i` of `m` tells of a head that is partly there (R227). -/
def State.pick (s : State) (p m : Nat) : Option Nat :=
  let ok (i : Nat) : Bool := s.eligible p i (m.testBit i)
  match s.firstTag p (([12, 13, 14, 15] : List Nat).filter ok) with
  | some i => some i
  | none => s.firstTag p ((List.range 12).filter ok)

/-! ### Selection -/

/-- Drops the head of a queue (R213, R87, R77). (DEDUCED: log entry 86.) -/
def State.dropHead (s : State) (q reason : Nat) : State :=
  match (s.queue q).granary with
  | [] => s
  | k :: _ =>
    let r := s.dropReason k reason
    (r.2.pullPkt (.granary q) k).dropQueued q k r.1

/-- What an eligibility test does to the head of a queue beyond the answer (R242, R243): a head that fits no window is
reported, and leaves once it is too old, and the head behind it is tested in turn; an express head that may start (R93) and does not fit now is
counted once. Bit `i` of `m` tells of a head that is partly there. -/
def State.testHead (s : State) (p i m : Nat) : Nat → State
  | 0 => s
  | n + 1 =>
    let q := 16 * p + i
    let v := s.port p
    let x := s.queue q
    match x.granary with
    | [] => s
    | k :: _ =>
      let late := decide (12 ≤ i) && k.known && v.ready k (m.testBit i) && !x.deferred &&
        (v.gates.statesAt s.time.ns).getLsbD i && !v.gateOk s.time i k.edited
      let s := if late then (s.modQueue q fun x => { x with deferred := true }).mac p 70 else s
      if v.stuck i k then
        let s := if x.noFit then s
          else (s.modQueue q fun x => { x with noFit := true }).raisePort p 0x0602 [word p, word q, word k.edited]
        if s.expired q k then (s.dropHead q rsLifetime).testHead p i m n else s
      else s

/-- The priority of the queue drops what it dequeues (R87). -/
def Port.stormDrops (v : Port) (i : Nat) : Bool :=
  v.stormDrop && decide (v.fcMode ≠ 0) && (tget v.pause (v.prioOf i) {}).recovery.isSome

/-- Lowers a shaper's credit by a charge in bytes. -/
def Shaper.charge (x : Shaper) (bytes : Int) : Shaper := if x.en then { x with credit := x.credit - bytes * byteUnit } else x

/-- The selection of the head of queue index `i`: V, tags, charges, and the frame in transmission (R230 to R233, R84). -/
def State.send (s : State) (p i : Nat) : State :=
  let q := 16 * p + i
  match (s.queue q).granary with
  | [] => s
  | k :: _ =>
    let f := (s.queue q).headF.getD 0
    let tier := if 12 ≤ i then [12, 13, 14, 15] else List.range 12
    let s := s.modPort p fun v => if 12 ≤ i then { v with vExpress := f } else { v with vOrdinary := f }
    let s := tier.foldl
      (fun t j =>
        t.modQueue (16 * p + j) fun x =>
          match x.headF with
          | some g => if tagBefore g f then { x with headF := some f } else x
          | none => x) s
    let v := s.port p
    let cost := (k.edited : Int) + v.overheadBytes
    let x := s.queue q
    -- the start-of-frame delimiter follows seven bytes of preamble
    let st := s.stamp v.txAdj (7 * v.bytePs)
    let tx : Tx :=
      { pkt := k, qidx := i, startNs := st.1, startFrac := st.2, startPs := s.time.ps
        close := if i < 12 then v.gates.close i s.time.ns else none, provisional := !k.known, overhead := v.overheadBytes
        chargedQ := if x.shaper.en then some cost else none
        chargedP := if v.shaper.en then some cost else none
        maxFrame := v.maxFrame.toNat }
    let s := s.setPort p { v with tx := some tx, shaper := v.shaper.charge cost }
    let s := s.modQueue q fun x => { x with shaper := x.shaper.charge cost, granary := x.granary.drop 1 }
    s.tagHead q (some k.id)

/-- Selects until a head is sent: expired and stormed heads, and heads beyond MAX_FRAME, are dropped (R76, R213, R87), and the next head
is tested in turn (R242). -/
def State.selectLoop (s : State) (p m : Nat) : Nat → State
  | 0 => s
  | n + 1 =>
    match s.pick p m with
    | none => s
    | some i =>
      let q := 16 * p + i
      match (s.queue q).granary with
      | [] => s
      | k :: _ =>
        if s.expired q k then ((s.dropHead q rsLifetime).testHead p i m n).selectLoop p m n
        else if (s.port p).stormDrops i then ((s.dropHead q rsPauseStorm).testHead p i m n).selectLoop p m n
        else if k.known = true ∧ (s.port p).maxFrame.toNat < k.edited then
          (((s.mac p 68).dropHead q rsOversize).testHead p i m n).selectLoop p m n
        else s.send p i

/-- The transmit side of a port's cluster is fenced (R384). -/
def State.txFenced (s : State) (p : Nat) : Bool := thas s.err.fences (2 * laneCluster p + 1)

/-- The packets of a port's granary segments. -/
def State.granaryCount (s : State) (p : Nat) : Nat :=
  ((portQueues p).map fun q => (s.queue q).granary.length).foldl (· + ·) 0

/-- The heads in reception that the scheduler has not granted are stored whole: another frame has the port, or something else than
how much of them is there keeps them back (R92). -/
def State.missedGrant (s : State) (p : Nat) : State :=
  let busy := (s.port p).tx.isSome
  (List.range 16).foldl
    (fun t i =>
      match (t.queue (16 * p + i)).granary with
      | [] => t
      | k :: _ =>
        if k.ct ∧ k.known = false ∧ (busy = true ∨ t.open_ p i k = false) then t.putPkt (.granary (16 * p + i)) { k with ct := false }
        else t) s

/-- The cells of the packet that a port has begun to send are read. -/
def State.readSent (s : State) (p : Nat) : State :=
  match (s.port p).tx with
  | some x => s.readCells (laneRegion p) x.pkt
  | none => s

/-- The state words that a port's transmit opportunity reads (R226, R230, R232). -/
def schedWords (port : Nat) : List RegionWord :=
  [.portShaper port, .virtualTime port false, .virtualTime port true] ++
    (List.range 16).flatMap fun i => [.queueShaper (16 * port + i), .headTag (16 * port + i)]

/-- A transmit opportunity of a port (R227). How much of a packet that is not wholly in the granary is there is told by
no row: a free value. (DESIGN CHOICE: log entry 83.) -/
def execTxSelect (port : Nat) (s : State) : Res :=
  onNum (decide (port < 1024))
    (if s.isUp port = false ∨ (s.port port).tx.isSome ∨ s.txFenced port = true then s
     else
      let s := if s.granaryCount port = 0 then s else (s.readLinks (laneRegion port)).stateMeets (laneRegion port) (schedWords port)
      let f := s.fresh
      let s := (List.range 16).foldl (fun t i => t.testHead port i f.1 (t.queue (16 * port + i)).granary.length) f.2
      ((s.selectLoop port f.1 (s.granaryCount port + 1)).missedGrant port).readSent port)

/-! ### The end of a frame -/

/-- An underrun: the frame is ended after `sent` bytes and CT_THRESHOLD rises (R96). -/
def execTxUnderrun (port sent : Nat) (s : State) : Res :=
  onNum (decide (port < 1024))
    (match (s.port port).tx with
      | none => s
      | some x =>
        if x.stomp.isSome ∨ x.pkt.badEnd.isSome then s
        else
          (s.modPort port fun v =>
            { v with
                tx := some { x with stomp := some (sent, BitVec.ofNat 8 rsTxUnderrun) }
                ctThresh := if v.ctThresh.toNat < 64 then v.ctThresh + 1 else v.ctThresh
                cleanCount := 0 }).mac port 67)

/-- How a frame in transmission ends: its length as sent, and the reason of a stomp. -/
def Tx.ending (x : Tx) : Nat × Option Nat :=
  match x.stomp, x.pkt.badEnd with
  | some (n, r), _ => (n + 4, some r.toNat)
  | none, some r => (((x.pkt.data.length + 4 : Nat) + x.pkt.delta).toNat, some r.toNat)
  | none, none => (x.pkt.edited, none)

/-- Adds back to a shaper what was charged too much; not limited by BURST (R233). -/
def Shaper.back (x : Shaper) (charged : Option Int) (right : Int) : Shaper :=
  match charged with
  | some c => if x.en then { x with credit := x.credit + (c - right) * byteUnit } else x
  | none => x

/-- The disposition of a frame that has left (Tables 3-5 and 9-1). -/
def State.leftFold (s : State) (p : Nat) (k : Pkt) (sent : Nat) (stomp : Option Nat) : State :=
  let r := laneRegion p
  if k.copy = 0 then
    match stomp with
    | none => s.fold r k .forwarded rsNone p k.len
    | some x => if x = rsOversize then s.fold r k .dropped x p k.len else s.fold r k .stomped x p k.len
  else
    match stomp with
    | none => s.fold r k .copyDelivered rsNone p sent
    | some x => s.fold r k .copyCut x p sent

/-- The host's view of a frame that has left: its descriptor's STATUS and its stamp (R279, R360).
(DEDUCED: log entry 43.) -/
def State.hostLeft (s : State) (p : Nat) (x : Tx) (stomp : Option Nat) : State :=
  match x.pkt.hostTx with
  | none => s
  | some h =>
    let s := s.emit (.txDone h.fn h.pos (stomp.getD 0))
    if h.tsReq then
      s.hold (1 + laneRegion p) h.fn 0x0704
        ([word p, h.stampId.zeroExtend 32] ++ wordsOf (x.startNs % 2 ^ 32 * 65536 + x.startFrac.toNat) 2)
    else s

/-- A frame's last bit leaves (R214, R233, R294). A frame whose reception or refill has not ended does not end.
(DEDUCED: log entry 84.) -/
def execTxFrameEnd (port : Nat) (s : State) : Res :=
  onNum (decide (port < 1024))
    (match (s.port port).tx with
      | none => s
      | some x =>
        let k := x.pkt
        if k.known = false ∨ (k.refilling = true ∧ x.stomp.isNone ∧ k.badEnd.isNone) then s
        else
          let q := 16 * port + x.qidx
          let e := x.ending
          let sent := e.1
          let bytes := s.editFrame k
          let right : Int := (sent : Int) + x.overhead
          let wrong := x.provisional || e.2.isSome
          let past := match x.close with
            | some c => decide (c * 1000 < x.startPs + (s.port port).occupancy sent)
            | none => false
          let s := s.modPort port fun v =>
            { v with tx := none, shaper := if wrong then v.shaper.back x.chargedP right else v.shaper }
          let s := s.modQueue q fun v => { v with shaper := if wrong then v.shaper.back x.chargedQ right else v.shaper }
          let s := if x.stomp.isSome then s else s.modPort port Port.clean
          let s := match e.2 with
            | none => s.macTxGood port sent bytes
            | some _ => (s.mac port 42 sent).mac port 66
          let s := if past then s.mac port 69 else s
          let s := (s.emit (.frame port sent (bytes.take (sent - 4)) e.2.isSome)).leftFold port k sent e.2
          let s := (s.hostLeft port x e.2).flushMac port
          let s := if k.ingress.isSome then
              s.histogram q (BitVec.ofNat 32 x.startNs - BitVec.ofNat 32 k.stampNs).toNat else s
          let cls := some k.cls.toNat
          (s.countTx port cls sent).freePkt q k)

/-- The next drop of a drain waits for the occupancy of this one (R97). -/
def State.drained (s : State) (p : Nat) (k : Pkt) : State :=
  s.modPort p fun v => { v with drainPs := s.time.runPs + v.occupancy k.edited }

/-- A down port drops the head packet of its lowest queue that holds one, at the die's refill pace where the packet is
in the glacier (R97, R215). (DEDUCED: log entry 85.) -/
def execPortDrainStep (port : Nat) (s : State) : Res :=
  onNum (decide (port < 1024))
    (if s.hasPort port = false ∨ s.isUp port = true ∨ s.time.runPs < (s.port port).drainPs then s
     else
      match (portQueues port).find? fun q => !(s.queue q).granary.isEmpty || !(s.queue q).glacier.isEmpty with
      | none => s
      | some q =>
        match (s.queue q).granary, (s.queue q).glacier with
        | k :: _, _ => (s.drained port k).dropHead q rsPortDown
        | [], k :: _ =>
          let d := regionDie (queueRegion q)
          let s := s.raiseCredit d
          if (s.glacier d).refillCredit < k.len then s
          else if s.descStruck q k then s.descLost q 0 k
          else
            let s := s.modGlacier d fun g => { g with refillCredit := g.refillCredit - k.len }
            ((s.drained port k).pullPkt (.glacier q) k).dropQueued q k rsPortDown
        | [], [] => s)

/-! ### Ticks -/

/-- INC of a rate: 2^-32 bytes every 8 ns (R232). -/
def incOf (rate : BitVec 32) : Int := (rate.toNat * 2 ^ 32 + 500000) / 1000000

/-- A value rises by `inc` up to a size in bytes; above it, it stays. -/
def riseTo (size : Nat) (v inc : Int) : Int := max v (min ((size : Int) * byteUnit) (v + inc))

def Shaper.tick (x : Shaper) : Shaper :=
  if x.en then { x with credit := riseTo x.burst.toNat x.credit (incOf x.rate) } else x

/-- Every 8 ns every enabled shaper's credit rises. -/
def execShaperTick (s : State) : Res :=
  .next { s with
    ports := s.ports.map fun e => (e.1, { e.2 with shaper := e.2.shaper.tick })
    queues := s.queues.map fun e => (e.1, { e.2 with shaper := e.2.shaper.tick }) }

/-- A meter's buckets after 8 ns (R244). -/
def Meter.tick (m : Meter) : Meter :=
  if m.mode = 0 then m
  else
    let c := riseTo m.cbs.toNat m.tokC (incOf m.cir)
    let spare := m.tokC + incOf m.cir - c
    let e1 := if m.mode = 1 then 0 else incOf m.eir
    let e2 := if m.mode = 1 ∨ m.coupled = true then max 0 spare else 0
    { m with tokC := c, tokE := riseTo m.ebs.toNat m.tokE (e1 + e2) }

/-- Every 8 ns every meter's buckets fill. -/
def execMeterTick (s : State) : Res := .next { s with meters := s.meters.map fun e => (e.1, e.2.tick) }

/-! ### Gates -/

/-- The entry in force, as the device's registers hold it. -/
def Gates.settle (g : Gates) (t : Nat) : Gates :=
  match g.schedule with
  | none => { g with states := g.statesAt t }
  | some x =>
    { g with
        current := ((x.at_ t).map (·.entry)).getD 0, cycleStart := Sys2Proof.Machine.cycleStart x.a x.ct t, states := g.statesAt t }

/-- A gate list entry comes into force (R236). -/
def execGateEntryChange (port : Nat) (s : State) : Res :=
  onNum (decide (port < 1024)) (s.modPort port fun v => { v with gates := v.gates.settle s.time.ns })

/-- The gates after a take-over (R237). -/
def Gates.takeOver (g : Gates) (t : Takeover) (now : Nat) : Gates :=
  { g with
      operBank := !g.operBank, listActive := true, operCycle := t.cycle, operCount := t.count, operStart := t.at_
      pending := none, takeovers := g.takeovers + 1 }.settle now

/-- The take-over instant has come: the administrative list becomes operational, with GATE_TAKEOVER (R237, R260). -/
def execGateTakeover (port : Nat) (s : State) : Res :=
  onNum (decide (port < 1024))
    (match (s.port port).gates.pending with
      | none => s
      | some t =>
        if s.time.ns < t.at_ then s
        else
          let s := s.modPort port fun v => { v with gates := v.gates.takeOver t s.time.ns }
          s.raisePort port 0x0601
            ([word port, word (b2n (s.port port).gates.operBank)] ++ wordsOf (t.at_ / s.time.beatLen) 2 ++
              [word (t.at_ % s.time.beatLen), word t.late]))

/-! ### Queue samples (R249, R250, R259) -/

/-- HEAD_DELAY of a queue at an instant. -/
def State.headDelay (s : State) (t q : Nat) : Nat :=
  let x := s.queue q
  match x.granary ++ x.glacier with
  | [] => 0
  | k :: _ => min 0xFFFFFFFF (t - k.stampNs)

/-- The three words of a queue in a sample. -/
def State.sampleEntry (s : State) (t q : Nat) : List Word :=
  let x := s.queue q
  [pack [(0, x.grDepth), (20, b2n x.spilling)], word x.glCells, word (s.headDelay t q)]

/-- A sampling instant t of a port, within the skew bound after it (R249). -/
def execQueueSample (port : Nat) (s : State) : Res :=
  onNum (decide (port < 1024))
    (match s.port? port with
      | none => s
      | some v =>
        let t := s.time.ns / 2 ^ v.sampleJ.toNat * 2 ^ v.sampleJ.toNat
        if v.sampleQEn = true ∧ s.time.ns ≤ t + 1 ∧ v.sampleAt ≠ some t then
          let ws := [pack [(0, port), (10, v.sampleJ.toNat)], v.sampleSeq] ++ wordsOf t 2 ++
            (portQueues port).flatMap (s.sampleEntry t)
          (s.setPort port { v with sampleSeq := v.sampleSeq + 1, sampleAt := some t }).addUnit 5 (1 + laneRegion port)
            (s.lossyHead 1) ws
        else s)

/-! ### Scheduling commands -/

/-- A shaper under a new configuration (R234). -/
def Shaper.config (x : Shaper) (en : Bool) (rate : BitVec 32) (burst : BitVec 24) : Shaper :=
  { en := en, rate := rate, burst := burst
    credit :=
      if en then
        if x.en then min x.credit ((burst.toNat : Int) * byteUnit) else (burst.toNat : Int) * byteUnit
      else x.credit }

/-- SCHED_PORT_CONFIG (R234, R239, R252). -/
def schedPortConfigAct (c : Cmd) (s : State) : State × Option Ans :=
  onPort c s fun p v =>
    let w := wd c.words 1
    let j := fld w 10 5
    let oh := signed 7 (fld w 0 7)
    if oh < -32 ∨ j < 14 ∨ 30 < j ∨ (bit w 7 = true ∧ wd c.words 2 = 0) then fail s stBadParam
    else
      let g : Gates := { v.gates with en := bit w 8 }
      done (s.setPort p
        { v with
            overhead := BitVec.ofNat 7 (fld w 0 7)
            shaper := v.shaper.config (bit w 7) (wd c.words 2) (BitVec.ofNat 24 (fld (wd c.words 3) 0 24))
            gates := g.settle s.time.ns, sampleQEn := bit w 9, sampleJ := BitVec.ofNat 5 j
            guardBand := BitVec.ofNat 24 (fld (wd c.words 4) 0 24) })

def execSchedPortConfig (c : Cmd) (s : State) : Res := .next (runCmd 0x0601 c s (schedPortConfigAct c))

/-- SCHED_QUEUE_CONFIG (R234, R253). -/
def schedQueueConfigAct (c : Cmd) (s : State) : State × Option Ans :=
  onQueue c s fun q x =>
    let w := wd c.words 1
    if fld w 0 10 = 0 ∨ (bit w 10 = true ∧ wd c.words 2 = 0) then fail s stBadParam
    else
      done (s.setQueue q
        { x with
            weight := BitVec.ofNat 10 (fld w 0 10)
            shaper := x.shaper.config (bit w 10) (wd c.words 2) (BitVec.ofNat 24 (fld (wd c.words 3) 0 24)) })

def execSchedQueueConfig (c : Cmd) (s : State) : Res := .next (runCmd 0x0602 c s (schedQueueConfigAct c))

/-- An INTERVAL that GATE_LIST_WRITE takes (Table 7-8): 0, or 8 to 4,000,000,000. -/
def intervalOk (w : Word) : Bool := decide (w = 0) || (decide (8 ≤ w.toNat) && decide (w.toNat ≤ 4000000000))

/-- The entries in the words of GATE_LIST_WRITE. -/
def gateWords (ws : List Word) (n : Nat) : List (Word × Word) :=
  (List.range n).map fun i => (wd ws (2 + 2 * i), wd ws (3 + 2 * i))

/-- GATE_LIST_WRITE (R239, R254). -/
def gateListWriteAct (c : Cmd) (s : State) : State × Option Ans :=
  onPort c s fun p v =>
    let first := fld (wd c.words 1) 1 8
    let n := fld (wd c.words 1) 9 9
    let es := gateWords c.words n
    if n = 0 ∨ 256 < first + n ∨ (es.any fun e => decide (65536 ≤ e.1.toNat) || !(intervalOk e.2)) then
      fail s stBadParam
    else if v.gates.pending.isSome then fail s stBusy
    else
      let put (b : Tab GateEntry) : Tab GateEntry :=
        ((List.range n).zip es).foldl
          (fun t e => tset t (first + e.1) {} { states := e.2.1.truncate 16, interval := e.2.2 }) b
      let g := v.gates
      done (s.setPort p { v with gates := if g.operBank then { g with bank0 := put g.bank0 } else { g with bank1 := put g.bank1 } })

def execGateListWrite (c : Cmd) (s : State) : Res := .next (runCmd 0x0603 c s (gateListWriteAct c))

/-- GATE_LIST_READ (R254). -/
def gateListReadAct (c : Cmd) (s : State) : State × Option Ans :=
  onPort c s fun _ v =>
    let w := wd c.words 1
    let first := fld w 1 8
    let n := fld w 9 9
    if n = 0 ∨ 256 < first + n then fail s stBadParam
    else
      let b := if bit w 0 then v.gates.bank1 else v.gates.bank0
      done s ((List.range n).flatMap fun i =>
        let e := tget b (first + i) {}
        [word e.states.toNat, e.interval])

def execGateListRead (c : Cmd) (s : State) : Res := .next (runCmd 0x0604 c s (gateListReadAct c))

/-- GATE_ACTIVATE (R237 to R239, R255). -/
def gateActivateAct (c : Cmd) (s : State) : State × Option Ans :=
  onPort c s fun p v =>
    let n := fld (wd c.words 1) 0 9
    let ct := (wd c.words 2).toNat
    let phase := fld (wd c.words 5) 0 30
    let g := v.gates
    let at_ := ((wd c.words 3).toNat + fld (wd c.words 4) 0 16 * 2 ^ 32) * s.time.beatLen + phase
    if n = 0 ∨ 256 < n ∨ ct < 1000 ∨ 4000000000 < ct ∨ s.time.beatLen ≤ phase ∨
        ((g.entries (!g.operBank) n).any fun e => decide (e.interval = 0)) then fail s stBadParam
    else if g.pending.isSome then fail s stBusy
    else if at_ < s.time.nextNs + 1000 ∧ c.strictTime then fail s stTimePassed
    else
      let late := ceilDiv (s.time.nextNs + 1000 - at_) ct
      let t := at_ + late * ct
      let k := min late 0xFFFFFFFF
      (s.setPort p { v with gates := { g with pending := some { at_ := t, count := n, cycle := ct, late := k } } },
        some
          { late := decide (0 < late)
            words := [word k] ++ wordsOf (t / s.time.beatLen) 2 ++ [word (t % s.time.beatLen)] })

def execGateActivate (c : Cmd) (s : State) : Res := .next (runCmd 0x0605 c s (gateActivateAct c))

/-- GATE_CANCEL (R239). -/
def gateCancelAct (c : Cmd) (s : State) : State × Option Ans :=
  onPort c s fun p v =>
    match v.gates.pending with
    | none => fail s stNotFound
    | some t =>
      if s.time.nextNs + 1000 ≤ t.at_ then done (s.setPort p { v with gates := { v.gates with pending := none } })
      else fail s stTimePassed

def execGateCancel (c : Cmd) (s : State) : Res := .next (runCmd 0x0606 c s (gateCancelAct c))

/-- GATE_STATUS (R256), computed from the time base (R236). -/
def gateStatusAct (c : Cmd) (s : State) : State × Option Ans :=
  onPort c s fun _ v =>
    let g := v.gates.settle s.time.ns
    done s
      ([pack [(0, b2n g.operBank), (1, b2n g.pending.isSome), (2, b2n g.listActive), (3, g.current),
          (16, g.states.toNat)],
        word g.operCycle, word g.operCount] ++ wordsOf g.cycleStart 2 ++
        wordsOf ((g.pending.map (·.at_)).getD 0) 2 ++ [g.takeovers])

def execGateStatus (c : Cmd) (s : State) : Res := .next (runCmd 0x0607 c s (gateStatusAct c))

/-- A signed amount in 2^-32 bytes as a word of whole bytes, saturating. -/
def wholeBytes (v : Int) : Word := BitVec.ofInt 32 (saturate 32 (v / byteUnit))

/-- SCHED_QUEUE_STATUS (R256); a head that is only partly there counts as not there. -/
def schedQueueStatusAct (c : Cmd) (s : State) : State × Option Ans :=
  onQueue c s fun q x =>
    let p := queuePort q
    let i := queueIdx q
    let v := s.port p
    done s
      [word (bitsOf [s.eligible p i false, (v.gates.statesAt s.time.ns).getLsbD i, v.queuePaused s.time i,
          x.shaper.ok && v.shaper.ok, x.deferred, !x.granary.isEmpty]),
        x.headF.getD 0, v.vOf q, wholeBytes x.shaper.credit, wholeBytes v.shaper.credit]

def execSchedQueueStatus (c : Cmd) (s : State) : Res := .next (runCmd 0x060A c s (schedQueueStatusAct c))

/-! ### Meters -/

/-- METER_CONFIG (R248, R257): a meter starts full, with its counts clear. -/
def meterConfigAct (c : Cmd) (s : State) : State × Option Ans :=
  let i := fld (wd c.words 0) 0 16
  let mask := BitVec.ofNat 4 (fld (wd c.words 0) 16 4)
  let w := wd c.words 1
  let mode := fld w 0 2
  let cir := wd c.words 2
  let eir := wd c.words 4
  let adj := signed 7 (fld w 5 7)
  if mask = 0 ∨ adj < -32 ∨ (mode = 1 ∧ eir ≠ 0) ∨ (mode = 2 ∧ eir.toNat < cir.toNat) ∨ (bit w 4 = true ∧ mode ≠ 3) then
    fail s stBadParam
  else
    let cbs := fld (wd c.words 3) 0 24
    let ebs := fld (wd c.words 5) 0 24
    let m : Meter :=
      { mode := BitVec.ofNat 2 mode, aware := bit w 2, redMark := bit w 3, coupled := bit w 4
        lenAdj := BitVec.ofNat 7 (fld w 5 7), cir := cir, cbs := BitVec.ofNat 24 cbs, eir := eir
        ebs := BitVec.ofNat 24 ebs, tokC := (cbs : Int) * byteUnit, tokE := (ebs : Int) * byteUnit }
    done ((maskRegions mask).foldl (fun t r => t.setMeter r i m) s)

def execMeterConfig (c : Cmd) (s : State) : Res := .next (runCmd 0x0608 c s (meterConfigAct c))

/-- METER_READ (R258). -/
def meterReadAct (c : Cmd) (s : State) : State × Option Ans :=
  let i := fld (wd c.words 0) 0 16
  let r := fld (wd c.words 0) 16 2
  let m := s.meter r i
  let ws := [pack [(0, m.mode.toNat), (2, b2n m.aware), (3, b2n m.redMark), (4, b2n m.coupled), (5, m.lenAdj.toNat)],
      m.cir, word m.cbs.toNat, m.eir, word m.ebs.toNat] ++ m.green.stickyWords ++ m.yellow.stickyWords ++
      m.red.stickyWords ++ [wholeBytes m.tokC, wholeBytes m.tokE]
  if m.green.frozen || m.yellow.frozen || m.red.frozen then fail s stUncorrected else
  done (if bit (wd c.words 0) 31 then s.setMeter r i { m with green := {}, yellow := {}, red := {} } else s) ws

def execMeterRead (c : Cmd) (s : State) : Res := .next (runCmd 0x0609 c s (meterReadAct c))

end Sys2Proof.Machine
end

