-- ==== Sys2Proof/Machine/Time.lean ====
section
/-!
DEFINITION. Steps of the time base (R274, R275), the servo and the time states (R271 to R278), the change of the beat rate
(R268, R269, R272), and the commands of group 0x07.
-/

namespace Sys2Proof.Machine

/-! ### Steps -/

/-- A take-over whose instant a forward step skipped moves on by whole cycles (R274). -/
def Takeover.skip (t : Takeover) (old new : Nat) : Takeover :=
  if old ≤ t.at_ ∧ t.at_ < new then
    let n := ceilDiv (new - t.at_) t.cycle
    { t with at_ := t.at_ + n * t.cycle, late := n }
  else t

/-- The time base is set to `v`, in units of 2^-48 ns, in one cycle: TIME_STEP, and for a forward step over boundaries one
boundary (R274, R275). -/
def State.stepTo (s : State) (v : Int) : State :=
  let old := s.time.ns
  let before := s.time.beat
  let t := s.time.load v
  let d : Int := (t.ns : Int) - old
  let new := t.ns
  let b := new / t.beatLen
  let after : BitVec 48 := if before.toNat < b then BitVec.ofNat 48 b else before
  let t :=
    { s.time.load v with
        beat := after, steps := s.time.steps + 1, stepSum := s.time.stepSum + BitVec.ofInt 32 d
        shift := s.time.shift + (v - s.time.total) }
  let s := { s with
    time := t
    ports := s.ports.map fun (e : Nat × Port) =>
      (e.1, { e.2 with
        sampleAt := none, gates := { e.2.gates with pending := e.2.gates.pending.map fun (x : Takeover) => x.skip old new } })
    tally := { s.tally with stepped := true, pcStepped := true } }
  let s := s.raise 0 0x0702 (wordsOf (unsigned 64 d) 2 ++ wordsOf before.toNat 2 ++ wordsOf after.toNat 2)
  if after ≠ before then s.fire before.toNat true false else s

/-- The limit that the time base never reaches (R262). -/
def timeMax : Int := 2 ^ 63 * nsUnit

/-- A step by `d`, in units of 2^-48 ns; a step of nothing is none. -/
def State.stepBy (s : State) (d : Int) : State :=
  let v := s.time.total + d
  if d = 0 ∨ v < 0 ∨ timeMax ≤ v then s else s.stepTo v

/-! ### FREQ_ADJ -/

/-- The stretch of LOCKED that runs is noted with its FREQ_ADJ (R278). -/
def Time.noteLocked (t : Time) : Time :=
  match t.lockFrom with
  | some a => { t with freqHist := (t.runNs - a, t.freqAdj) :: t.freqHist, lockFrom := some t.runNs }
  | none => t

/-- Sets FREQ_ADJ; what LOCKED has run under is kept for R278. -/
def State.setFreq (s : State) (f : Int) : State := { s with time := { s.time.noteLocked with freqAdj := f } }

/-- The servo's new FREQ_ADJ after a measurement: the spec gives its bandwidth and no gains, so the value is free within
its range. (DESIGN CHOICE: log entry 91.) -/
def State.servo (s : State) : State :=
  let x := s.fresh
  x.2.setFreq ((x.1 % (2 * ppm500 + 1).toNat : Nat) - ppm500)

/-- The sum of FREQ_ADJ times its duration over the newest `span` ns of a history. -/
def freqArea (span : Nat) : List (Nat × Int) → Int
  | [] => 0
  | (n, f) :: rest => f * (min n span : Nat) + freqArea (span - n) rest

/-- The FREQ_ADJ of a holdover that begins now: its mean over the last HOLDOVER_AVG seconds of LOCKED, or as it is after less of it
(R278). (DEDUCED: log entry 98.) -/
def Time.holdFreq (t : Time) : Int :=
  let span := t.holdAvg.toNat * 1000000000
  let l := t.noteLocked.freqHist
  if (l.map Prod.fst).foldl (· + ·) 0 < span then t.freqAdj else freqArea span l / span

/-! ### Time states (R277, Table 8-2) -/

def TimeState.code : TimeState → Nat
  | .unset => 0 | .freerun => 1 | .acquiring => 2 | .locked => 3 | .holdover => 4

/-- Changes the time state with its event. -/
def State.setTimeState (s : State) (new : TimeState) (cause : Nat) : State :=
  let old := s.time.state
  if old = new then s
  else
    let t := s.time
    let t : Time :=
      { t.noteLocked with
          state := new, within := 0, beyond := 0
          freqAdj := if new = .holdover then t.holdFreq else t.freqAdj
          holdSince := if new = .holdover then some t.runNs else none
          settleFrom := none
          lockFrom := if new = .locked then some t.runNs else none
          ppsLocked := t.ppsLocked || (decide (new = .locked) && decide (t.source = 1)) }
    ({ s with time := t }).raise 0 0x0701 [word old.code, word new.code, word cause]

/-- A valid measurement moves the time state, or is ignored while a HOLDOVER settles (true when it counts).
(DEDUCED: log entry 93.) -/
def State.stateMeasured (s : State) : State × Bool :=
  let s := { s with time := { s.time with measured := s.time.runNs } }
  match s.time.state with
  | .unset => (s.setTimeState .acquiring 0, true)
  | .freerun => (s.setTimeState .acquiring 1, true)
  | .acquiring => (s, true)
  | .locked => (s, true)
  | .holdover =>
    let first := s.time.settleFrom.getD s.time.runNs
    let s := { s with time := { s.time with settleFrom := some first } }
    if first + s.time.settle.toNat * 1000000000 ≤ s.time.runNs then (s.setTimeState .acquiring 6, true) else (s, false)

/-- Counts a measurement that is or is not within LOCK_THRESH, and beyond 4 x LOCK_THRESH (Table 8-2). -/
def State.countMeasure (s : State) (inside outside : Bool) : State :=
  match s.time.state with
  | .acquiring =>
    let n := if inside then s.time.within + 1 else 0
    if 16 ≤ n then s.setTimeState .locked 2 else { s with time := { s.time with within := n } }
  | .locked =>
    let n := if outside then s.time.beyond + 1 else 0
    if 4 ≤ n then s.setTimeState .acquiring 4 else { s with time := { s.time with beyond := n } }
  | _ => s

/-- The part of an offset that corrects the phase: a step, or a slew that takes it out (R274, R276).
(DEDUCED: log entry 92.) -/
def State.correct (s : State) (off : Int) : State :=
  let t := s.time
  let big : Bool := decide ((t.stepLimit.toNat : Int) * nsUnit < off.natAbs)
  if t.firstAcq ∨ (big = true ∧ t.stepEn = true) then
    ({ s with time := { t with firstAcq := false, phaseValid := true, slewLeft := 0 } }).stepBy (-off)
  else { s with time := { t with phaseValid := true, slewLeft := -off } }

/-- A valid offset measurement of SOURCE 1 or 2, in units of 2^-48 ns. (DEDUCED: log entry 89.) -/
def State.measure (s : State) (off : Int) : State :=
  let s := { s with time := { s.time with offset := off / nsUnit } }
  let x := s.stateMeasured
  if x.2 = false then x.1
  else
    let th : Int := (s.time.lockThresh.toNat : Int) * nsUnit
    let t := x.1.correct off
    let t := if t.time.source = 1 ∧ t.time.refEn then t else t.servo
    t.countMeasure (decide ((off.natAbs : Int) ≤ th)) (decide (4 * th < off.natAbs))

/-- A PPS edge at a captured time base value, in units of 1/8 ns (R271). (DEDUCED: log entry 95.) -/
def execPpsEdge (captured : Nat) (s : State) : Res :=
  let t := s.time
  let sec : Nat := 8000000000
  if s.pwr.ready = false ∨ t.source ≠ 1 then .next s
  else
    let since : Nat := (((captured : Int) * 2 ^ 45 - t.shift) / 2 ^ 45).toNat
    let lab := match t.ppsLabel with | some (n, at_) => if (at_ + 1000000) * 8 ≤ since then some n else none | none => none
    -- the labelled second of this edge: as many seconds after the last one measured as have passed since it
    let label : Option Nat := lab.orElse fun _ => t.ppsLast.map fun e => e.1 + (since - e.2 + sec / 2) / sec
    let want : Nat := match label with | some n => n * sec | none => (captured + sec / 2) / sec * sec
    let off : Int := (captured : Int) - want
    if lab.isNone && t.ppsLocked && decide (8000000 < off.natAbs) then
      .next { s with time := { t with ppsRejects := satAdd 16 t.ppsRejects 1 } }
    else
      let t : Time := if lab.isSome then { t with ppsLabel := none, labelled := true } else t
      let t : Time := { t with ppsLast := label.map fun n => (n, since) }
      let u := ({ s with time := t }).measure (off * 2 ^ 45)
      -- after a label the lock on the PPS is the one that its measurement leaves
      .next { u with time := { u.time with ppsLocked := if lab.isSome then decide (u.time.state = .locked) else u.time.ppsLocked } }

/-- A 1 s window of the 10 MHz input ends (R271): a frequency measurement, and for SOURCE 4 a measurement of the state.
(DEDUCED: log entry 94.) -/
def execRef10mWindow (freq : Int) (s : State) : Res :=
  if s.pwr.ready = false then .next s
  else if s.time.source = 1 ∧ s.time.refEn then .next (if s.time.state = .holdover then s else s.servo)
  else if s.time.source = 4 then
    let x := s.stateMeasured
    if x.2 = false then .next x.1
    else
      let off : Int := freq * 1000000000
      let th : Int := (s.time.lockThresh.toNat : Int) * nsUnit
      .next (x.1.servo.countMeasure (decide ((off.natAbs : Int) ≤ th)) (decide (4 * th < off.natAbs)))
  else .next s

/-- No valid measurement has arrived for SOURCE_TIMEOUT, in units of 100 ms (Tables 8-2, 8-6). -/
def execSourceTimeout (s : State) : Res :=
  .next
    (if s.time.source ≠ 0 ∧ (s.time.state = .acquiring ∨ s.time.state = .locked) ∧
        s.time.measured + s.time.srcTimeout.toNat * 100000000 ≤ s.time.runNs then s.setTimeState .holdover 3
    else s)

/-! ### The beat rate -/

/-- The command waits in the scheduled-command store. -/
def Flight.stored (f : Flight) : Bool := match f.phase with | .stored _ => true | _ => false

/-- The scheduled-command store is given up: its commands complete with EPOCH_STALE (R351), those of a function that was
reset without a reply (R444). -/
def State.dropStored (s : State) : State :=
  let gone := s.cif.flights.filter Flight.stored
  let s := gone.foldl (fun t f => t.countDone f.cmd f.priv false) s
  let s := gone.foldl
    (fun t f => if f.discard then t.emit (.discarded (match f.cmd.src with | .pcie n => n | _ => 0)) else t) s
  { s with cif := { s.cif with
      flights := (s.cif.flights.filter fun f => !(f.stored && f.discard)).map fun f =>
        if f.stored then { f with phase := .done, reply := some (s.mkReply f.cmd stEpochStale [] false) } else f } }

/-- What a change that bell frames bring gives up: gate take-overs, and epochs in STAGING or SCHEDULED (R272). -/
def State.bellGivesUp (s : State) : State :=
  let s := { s with ports := s.ports.map fun (e : Nat × Port) => (e.1, { e.2 with gates := { e.2.gates with pending := none } }) }
  s.cif.epochs.foldl (fun t (x : Epoch) => t.abandonEpoch x.epoch.toNat 1) s

/-- The next whole second of the time base. -/
def Time.nextSecond (t : Time) : Nat := t.ns / 1000000000 + 1

/-- A pending change of B falls on the next beat boundary: that is the next whole second, or lies past it (R268). -/
def Time.rateDue (t : Time) : Bool := t.pendingB.isSome && decide (t.nextSecond * 1000000000 ≤ t.boundary (t.beat.toNat + 1))

/-- The instant at which the next boundary row is due: the next beat boundary, or the whole second of a change of B that falls on it or
comes before it (R268). -/
def Time.nextDue (t : Time) : Nat := if t.rateDue then t.nextSecond * 1000000000 else t.boundary (t.beat.toNat + 1)

/-- The whole second has come: the new rate and generation take effect (R268, R272, R152). (DEDUCED: log entry 99.) -/
def State.changeRate (s : State) : State :=
  match s.time.pendingB with
  | none => s
  | some (b, gen) =>
    let t := s.time
    let second := t.nextSecond
    let old := t.beat.toNat
    let s := s.elapse (t.reach (second * 1000000000))
    let s := { s with
      time := { s.time with
        beats := b, bellGen := gen.getD (t.bellGen + 1), beat := BitVec.ofNat 48 (second * b.toNat), pendingB := none }
      tbl := { s.tbl with
        agePeriod :=
          if s.tbl.agePeriod = 0 then 0 else BitVec.ofNat 24 (max s.tbl.agePeriod.toNat (ceilDiv b.toNat 10)) } }
    let s := s.raise 0 0x0703 [word t.beats.toNat, word b.toNat, word s.time.bellGen.toNat]
    let s := if gen.isSome then s.bellGivesUp else s
    s.dropStored.fire old false true

/-- The change of B takes effect where the next beat boundary is that of its whole second; before that nothing happens. -/
def execBellRateChange (s : State) : Res := .next (if s.timeRuns = true ∧ s.time.rateDue = true then s.changeRate else s)

/-- The next beat boundary: the time base has reached it; a change of B that falls on it takes effect there.
(DESIGN CHOICE: log entry 11.) -/
def execBeatBoundary (s : State) : Res :=
  .next
    (if s.timeRuns = false then s
    else if s.time.rateDue then s.changeRate
    else
      let old := s.time.beat.toNat
      let s := s.elapse (s.time.reach (s.time.boundary (old + 1)))
      let s := { s with time := { s.time with beat := s.time.beat + 1 } }
      s.fire old false false)

/-! ### Commands (R285 to R290) -/

/-- FREQ_ADJ in units of 2^-8 ppb, to the nearest. (DEDUCED: log entry 96.) -/
def Time.freqPpb (t : Time) : Int := (t.freqAdj * 256000000000 * 2 + nsUnit) / (2 * nsUnit)

/-- TIME_STATUS (R290). -/
def timeStatusAct (s : State) : State × Option Ans :=
  let t := s.time
  let held := decide (t.ns < t.boundary t.beat.toNat)
  done s
    ([pack [(0, t.state.code), (3, t.source.toNat), (6, b2n t.phaseValid), (7, b2n t.labelled), (8, b2n t.upHoldover),
        (9, b2n held), (16, t.bellGen.toNat)]] ++ wordsOf t.ns 2 ++ [word (t.frac.toNat / 2 ^ 32)] ++
      wordsOf t.beat.toNat 2 ++
      [word t.phase, word t.beats.toNat, BitVec.ofInt 32 (saturate 32 t.offset), BitVec.ofInt 32 t.freqPpb,
        pack [(0, t.steps.toNat), (16, t.ppsRejects.toNat)]] ++ wordsOf s.aon.powerOn.toNat 2 ++
      [s.aon.sinceVaux, word (match t.holdSince with | some h => (t.runNs - h) / 1000000000 | none => 0)])

def execTimeStatus (c : Cmd) (s : State) : Res := .next (runCmd 0x0701 c s timeStatusAct)

/-- Something waits that a change of B would break (R269). -/
def State.bellBusy (s : State) (c : Cmd) : Bool :=
  (s.cif.epochs.any fun x => decide (x.state = .staging) || decide (x.state = .scheduled)) ||
  (s.cif.flights.any fun f => f.cmd.atBeat && !f.rejected && decide (f.phase ≠ .done) && decide (f.cmd ≠ c)) ||
  (s.ports.any fun e => e.2.gates.pending.isSome) || s.time.pendingB.isSome

/-- BELL_CONFIG (R263, R268, R269). -/
def bellConfigAct (c : Cmd) (s : State) : State × Option Ans :=
  let b := fld (wd c.words 1) 0 14
  let target := match s.time.pendingB with | some (n, _) => n.toNat | none => s.time.beats.toNat
  if b < 10 ∨ 10000 < b ∨ 1000000000 % b ≠ 0 then fail s stBadParam
  else if s.time.source = 2 then fail s stBusy
  else if b = target then done s
  else if s.bellBusy c then fail s stBusy
  else done { s with time := { s.time with pendingB := some (BitVec.ofNat 14 b, none) } }

def execBellConfig (c : Cmd) (s : State) : Res := .next (runCmd 0x0702 c s (bellConfigAct c))

/-- TIME_SOURCE_CONFIG (R270, R287, Table 8-6). -/
def timeSourceConfigAct (c : Cmd) (s : State) : State × Option Ans :=
  let w1 := wd c.words 1
  let w2 := wd c.words 2
  let w4 := wd c.words 4
  let src := fld w1 0 3
  let bw := fld w1 6 2
  let slew := fld w1 8 8
  let lim := fld (wd c.words 3) 0 30
  if 5 ≤ src ∨ (bit w1 3 = true ∧ src ≠ 1) ∨ bw = 3 ∨ (bw = 2 ∧ src ≠ 2) ∨ slew = 0 ∨ 250 < slew ∨ fld w2 0 16 = 0 ∨
      fld w2 16 8 = 0 ∨ fld w2 24 8 = 0 ∨ lim < 1000 ∨ 1000000000 < lim then fail s stBadParam
  else
    let old := s.time.source
    let s := { s with time := { s.time with
      source := BitVec.ofNat 3 src, refEn := bit w1 3, stepEn := bit w1 4, ppsFall := bit w1 5
      servoBw := BitVec.ofNat 2 bw, slewMax := BitVec.ofNat 8 slew
      lockThresh := w2.extractLsb' 0 16, srcTimeout := w2.extractLsb' 16 8, holdAvg := w2.extractLsb' 24 8
      stepLimit := BitVec.ofNat 30 lim, asymAdj := w4.extractLsb' 0 16, settle := w4.extractLsb' 16 8 } }
    let st := s.time.state
    let s := if old.toNat = src then s else { s with time := { s.time with ppsLast := none, ppsLocked := false } }
    if old.toNat = src ∨ st = .unset ∨ st = .freerun then done s
    else if src = 0 then done (s.setTimeState .freerun 1)
    else if st = .locked then done (s.setTimeState .holdover 1)
    else done s

def execTimeSourceConfig (c : Cmd) (s : State) : Res := .next (runCmd 0x0703 c s (timeSourceConfigAct c))

/-- A TIME_ADJUST has acted: with SOURCE 3 it is a measurement within LOCK_THRESH, with SOURCE 0 it ends UNSET (R277). -/
def State.adjusted (s : State) : State :=
  if s.time.source = 3 then
    let x := s.stateMeasured
    if x.2 then x.1.countMeasure true false else x.1
  else if s.time.state = .unset then s.setTimeState .freerun 1
  else s

/-- The signed value of modes 0 and 1, in units of 2^-48 ns (R288). -/
def adjustValue (c : Cmd) : Int :=
  (signed 64 (wd64 c.words 2)) * nsUnit + (fld (wd c.words 4) 0 16 : Int) * 2 ^ 32

/-- TIME_ADJUST in the mode of its row. (DEDUCED: log entry 14.) -/
def timeAdjust (mode : Nat) (c : Cmd) (s : State) (f : State → State × Option Ans) : State × Option Ans :=
  if fld (wd c.words 1) 0 2 ≠ mode then fail s stBadParam
  else if s.time.source ≠ 0 ∧ s.time.source ≠ 3 then fail s stBusy
  else f s

/-- Mode STEP (R274, R275, R288). -/
def timeAdjustStepAct (c : Cmd) (s : State) : State × Option Ans :=
  timeAdjust 0 c s fun s =>
    let v := s.time.total + adjustValue c
    if v < 0 ∨ timeMax ≤ v then fail s stBadParam
    else
      let t := s.stepBy (adjustValue c)
      done ({ t with time := { t.time with phaseValid := true } }).adjusted

def execTimeAdjustStep (c : Cmd) (s : State) : Res := .next (runCmd 0x0704 c s (timeAdjustStepAct c))

/-- Mode SLEW: the signed value is taken out of the time base by R276, in place of any slew in progress.
(DEDUCED: log entry 90.) -/
def timeAdjustSlewAct (c : Cmd) (s : State) : State × Option Ans :=
  timeAdjust 1 c s fun s =>
    let v := adjustValue c
    if 1000000000 * nsUnit < v.natAbs then fail s stBadParam
    else done ({ s with time := { s.time with slewLeft := -v } }).adjusted

def execTimeAdjustSlew (c : Cmd) (s : State) : Res := .next (runCmd 0x0704 c s (timeAdjustSlewAct c))

/-- Mode FREQ: sets FREQ_ADJ, to the nearest unit of 2^-48. -/
def timeAdjustFreqAct (c : Cmd) (s : State) : State × Option Ans :=
  timeAdjust 2 c s fun s =>
    let v := signed 32 (wd c.words 2).toNat
    if wd c.words 3 ≠ 0 ∨ fld (wd c.words 4) 0 16 ≠ 0 ∨ 128000000 < v.natAbs then fail s stBadParam
    else done (s.setFreq ((v * nsUnit * 2 + 256000000000) / 512000000000)).adjusted

def execTimeAdjustFreq (c : Cmd) (s : State) : Res := .next (runCmd 0x0704 c s (timeAdjustFreqAct c))

/-- Mode SET: loads the time base, as a step of the difference; the next acquisition steps (R274, R288). -/
def timeAdjustSetAct (c : Cmd) (s : State) : State × Option Ans :=
  timeAdjust 3 c s fun s =>
    let v : Int := (wd64 c.words 2 : Int) * nsUnit + (fld (wd c.words 4) 0 16 : Int) * 2 ^ 32
    if timeMax ≤ v then fail s stBadParam
    else
      let t := s.stepBy (v - s.time.total)
      done ({ t with time := { t.time with phaseValid := true, firstAcq := true } }).adjusted

def execTimeAdjustSet (c : Cmd) (s : State) : Res := .next (runCmd 0x0704 c s (timeAdjustSetAct c))

/-- TIME_PPS_LABEL (R271, R289): a second label replaces one that waits. -/
def timePpsLabelAct (c : Cmd) (s : State) : State × Option Ans :=
  let n := (wd c.words 1).toNat + fld (wd c.words 2) 0 16 * 2 ^ 32
  if 2 ^ 63 ≤ n * 1000000000 then fail s stBadParam
  else if s.time.source ≠ 1 then fail s stBusy
  else done { s with time := { s.time with ppsLabel := some (n, s.time.runNs) } }

def execTimePpsLabel (c : Cmd) (s : State) : Res := .next (runCmd 0x0705 c s (timePpsLabelAct c))

end Sys2Proof.Machine
end

