-- ==== Sys2Proof/Machine/CmdPath.lean ====
section
/-!
DEFINITION. The command path (R335, R337, R338, R343 to R352): taking commands from rings and the CMD mailbox, the checks on
arrival, dispatch in order, the scheduled-command store, the hold queue of a live patch, completion, and the replies.
-/

namespace Sys2Proof.Machine

/-! ### Flights and their queues -/

/-- A flight belongs to a queue: a command ring of a function, the management bus, or a sending device (Table 10-1). -/
def inQueue (src : Sender) (q : Nat) (f : Flight) : Bool :=
  decide (f.cmd.src = src) && match src with | .pcie _ => decide (f.ring.toNat = q) | _ => true

/-- Two senders share a channel. -/
def sameChannel (a b : Sender) : Bool := decide (senderChannel a = senderChannel b)

def State.setFlights (s : State) (l : List Flight) : State := { s with cif := { s.cif with flights := l } }

/-- A flight is the command with this tag of a queue. -/
def isTag (src : Sender) (q : Nat) (tag : BitVec 12) (f : Flight) : Bool := inQueue src q f && decide (f.cmd.tag = tag)

/-- Changes the first flight of a list that `is` picks. -/
def modFirst (is : Flight → Bool) (g : Flight → Flight) : List Flight → List Flight
  | [] => []
  | f :: fs => if is f then g f :: fs else f :: modFirst is g fs

/-- The list without the first flight that `is` picks. -/
def dropFirst (is : Flight → Bool) : List Flight → List Flight
  | [] => []
  | f :: fs => if is f then fs else f :: dropFirst is fs

/-- A command that is accepted and has not taken effect. -/
def Flight.open_ (f : Flight) : Bool := !f.rejected && decide (f.phase ≠ .done)

/-- The opcode of BARRIER. -/
def Flight.barrier (f : Flight) : Bool := decide (f.cmd.opcode = 0x0104)

/-! ### Parish routes (R416, R417) -/

/-- The child port that a frame for device `d` leaves by: the lowest-numbered one whose current bitmap holds it. -/
def State.childFor (s : State) (d : Nat) : Option Nat :=
  (s.parish.children.find? fun e =>
    decide (e.1 % 4 = d / 4096) && decide (s.time.beatRun ≤ e.2.beat + 8) && e.2.bits.getLsbD (d % 4096) &&
      decide ((s.port (e.1 / 4)).portRole = 3)).map fun e => e.1 / 4

/-- A manager or a relay passes commands for other devices on (R333). -/
def State.forwards (s : State) : Bool := decide (s.parish.role = roleManager) || decide (s.parish.role = roleRelay)

/-- A forwarding tag that no flight holds, from the next one on (R418). -/
def State.freeFtag (s : State) : Nat :=
  let used := s.cif.flights.filterMap fun f => match f.phase with | .forwarded t _ => some t | _ => none
  (((List.range 4096).map fun i => (s.parish.nextFtag + i) % 4096).find? fun t => !used.contains t).getD 0

/-- The bytes of a command packet as it is passed on under a forwarding tag, with its trailer. A reply is asked for, since the
manager waits for it (R418). (PRESUMED: log entry 21.) -/
def cmdPacket (c : Cmd) (ftag : Nat) : List Byte :=
  encodeCmd { c with noReply := false, checkCrc := true, tag := BitVec.ofNat 12 ftag, queue := 0 }

/-- Sends a forwarded command down the tree. -/
def State.sendCommand (s : State) (c : Cmd) (ftag port : Nat) : State :=
  s.queueRiwen port rwCommand c.device.toNat (cmdPacket c ftag)

/-! ### Acceptance (R335, R345, R346) -/

/-- The in-flight share of a channel (R346). (DEDUCED: log entry 22.) -/
def share : Sender → Nat
  | .pcie _ => 3968
  | .mgmt => 64
  | .inband _ => 64

/-- Check 5: the channel's share of the in-flight limit is used up. -/
def State.tagsOut (s : State) (src : Sender) : Bool :=
  let live := s.cif.flights.filter fun f => !f.rejected
  decide (share src ≤ (live.filter fun f => sameChannel f.cmd.src src).length) || decide (4096 ≤ live.length)

/-- Check 6's tag part: the sender has a command in flight under this tag (R345). -/
def State.tagClash (s : State) (c : Cmd) : Bool :=
  s.cif.flights.any fun f => !f.rejected && decide (f.cmd.src = c.src) && decide (f.cmd.tag = c.tag)

/-- The first of checks 1 to 6 that a packet fails on arrival. -/
def State.arrivalFail (s : State) (c : Cmd) : Option Nat :=
  match cmdFailForm c with
  | some st => some st
  | none =>
    match s.failPriv c with
    | some st => some st
    | none =>
      if s.tagsOut c.src then some stTagsExhausted
      else if s.tagClash c then some stBadParam
      else if c.device ≠ s.parish.device ∧ s.forwards = true then
        if cmdFlagsOk c && cmdQueueOk c then none else some stBadParam
      else s.failTarget c

/-- A packet arrives, on PCIe from command ring `q`: it is accepted into its queue, or its rejection waits for its turn among
the replies. -/
def State.accept (s : State) (c : Cmd) (forced : Option Nat := none) (q : Nat := 0) : State :=
  let priv := s.privilege c.src
  match (forced <|> s.arrivalFail c) with
  | some st =>
    (s.setFlights (s.cif.flights ++
      [{ cmd := c, priv := priv, ring := BitVec.ofNat 4 q, phase := .done, rejected := true, reply := some (s.mkReply c st [] false) }])).countDone c priv
        false
  | none =>
    (s.setFlights (s.cif.flights ++ [{ cmd := c, priv := priv, ring := BitVec.ofNat 4 q }])).perf
      { event := 0x010, priv := some priv, chan := some c.src, addr := some c.unit.toNat }

/-! ### PCIe command rings (R337) -/

def CRing.size (r : CRing) : Nat := 2 ^ r.sizeLog2.toNat

def State.cmdRing (s : State) (fn q : Nat) : CRing := tget (s.func fn).cmdRings q {}

def State.setCmdRing (s : State) (fn q : Nat) (r : CRing) : State :=
  s.setFunc fn { s.func fn with cmdRings := tins (s.func fn).cmdRings q r }

def State.rplRing (s : State) (fn q : Nat) : CRing := tget (s.func fn).rplRings q {}

def State.setRplRing (s : State) (fn q : Nat) (r : CRing) : State :=
  s.setFunc fn { s.func fn with rplRings := tins (s.func fn).rplRings q r }

/-- The device writes the CONSUMER of a command ring to words 2 and 3 of its control block (R337). -/
def State.tellConsumer (s : State) (fn : Nat) (r : CRing) : State := s.emit (.consumer fn r.ctrl r.consumer)

/-- The device fetches the command at CONSUMER of ring q, and tells the host how far it has come (R337). -/
def execCommandFetch (fn q : Nat) (bytes : List Byte) (s : State) : Res :=
  onNum (decide (fn < 16) && decide (q < 16))
    (let r := s.cmdRing fn q
    if s.pwr.ready = false ∨ s.cif.pcieUp = false ∨ r.en = false ∨ r.stopped = true ∨ r.producer = r.consumer ∨
        (s.rplRing fn r.replyQ.toNat).blocked ≠ [] then s
    else
      let c := parseCmd (.pcie fn) bytes
      if 1020 < c.paramWords.toNat then (s.setCmdRing fn q { r with stopped := true }).accept c (some stBadLength) q
      else
        let n := roundUp (cmdBytes c.paramWords.toNat c.checkCrc) 64
        let r := { r with consumer := r.consumer + BitVec.ofNat 64 n }
        ((s.setCmdRing fn q r).tellConsumer fn r).accept c none q)

/-! ### The CMD mailbox (R340 to R343) -/

/-- The fill of a mailbox (R340). -/
def Mailbox.fill (m : Mailbox) : Nat := (m.wptr - m.rptr).toNat

/-- The fill at the start of the ACLK cycle of the last read. -/
def Mailbox.startFill (m : Mailbox) : Nat := (m.startW - m.startR).toNat

/-- A new ACLK cycle begins with the pointers of now. (DESIGN CHOICE: log entry 182.) -/
def Mailbox.cycle (m : Mailbox) : Mailbox := { m with startW := m.wptr, startR := m.rptr }

/-- The fill against which a write is judged: that at the start of its cycle, where it shares one with the last read (R341). -/
def Mailbox.fillFor (m : Mailbox) (same : Bool) : Nat := if same then m.startFill else m.fill

/-- Writes an entry to a mailbox that is not full; LEVEL_HIT is set when the cycle takes the fill from below LEVEL to LEVEL or
more (R342). -/
def Mailbox.push (m : Mailbox) (e : List Byte) (same : Bool) : Mailbox :=
  Mailbox.cycle
    { m with
        entries := tins m.entries (m.wptr.toNat % 256) e, wptr := m.wptr + 1
        levelHit := m.levelHit ||
          (decide (m.level ≠ 0) && decide (m.fillFor same < m.level.toNat) && decide (m.level.toNat ≤ m.fill + 1)) }

/-- Takes the oldest entry of a mailbox that is not empty. -/
def Mailbox.pop (m : Mailbox) : Mailbox × List Byte :=
  let e := tget m.entries (m.rptr.toNat % 256) []
  ({ m.cycle with entries := tdel m.entries (m.rptr.toNat % 256), rptr := m.rptr + 1 }, e)

/-- Takes `n` entries. -/
def Mailbox.take (m : Mailbox) : Nat → Mailbox × List Byte
  | 0 => (m, [])
  | n + 1 =>
    let a := m.pop
    let b := Mailbox.take a.1 n
    (b.1, a.2 ++ b.2)

def State.setCmdBox (s : State) (m : Mailbox) : State := { s with aon := { s.aon with cmdBox := m } }

/-- Entries of 64 bytes that `n` bytes occupy. -/
def entriesOf (n : Nat) : Nat := ceilDiv n 64

/-- The device takes the next command of the CMD mailbox, or one entry while DISCARDING (R343). (DEDUCED: log entry 23.) -/
def execMailboxCommandTake (s : State) : Res :=
  .next
    (let m := s.aon.cmdBox
    if s.aon.vaux = false ∨ m.fill = 0 then s
    else if s.aon.discarding then s.setCmdBox m.pop.1
    else
      let h := parseCmd .mgmt (m.take (min m.fill 1)).2
      if 1020 < h.paramWords.toNat then
        let t := (s.setCmdBox m.pop.1).accept h (some stBadLength)
        { t with aon := { t.aon with discarding := true } }
      else
        let n := entriesOf (cmdBytes h.paramWords.toNat h.checkCrc)
        if m.fill < n then s
        else
          let x := m.take n
          let c := parseCmd .mgmt x.2
          let t := (s.setCmdBox x.1).accept c
          if c.checkCrc = false ∨ c.crcOk = false then { t with aon := { t.aon with discarding := true } } else t)

/-! ### Dispatch (R347 to R351, R35, R374) -/

/-- The region steward of the command is being patched, or reloads after a watchdog fault: its commands are held (R374,
R393). -/
def State.engineHeld (s : State) (e : Nat) : Bool :=
  decide (e ≠ 0) &&
    ((match s.stw.patch with | some p => decide (1 + p.region = e) | none => false) ||
      decide ((s.engine e).state = .faulted))

/-- Commands in the hold queue. -/
def State.heldCount (s : State) : Nat := (s.cif.flights.filter fun f => decide (f.phase = .held)).length

/-- Commands in the scheduled-command store. -/
def State.storedCount (s : State) : Nat :=
  (s.cif.flights.filter fun f => match f.phase with | .stored _ => true | _ => false).length

/-- A command ends with a status before it took effect: it counts as failed (Table 9-9), and its reply is ready, or is discarded with its
function's reset (R444). -/
def State.finish (s : State) (c : Cmd) (st : Nat) (f : Flight) : State × Flight :=
  let t := s.countDone c f.priv false
  if f.discard then (t.emit (.discarded (match c.src with | .pcie n => n | _ => 0)), { f with phase := .done, pending := none, reply := none })
  else (t, { f with phase := .done, reply := some (s.mkReply c st [] false) })

/-- Lists flights, without those that have ended with their function's reset: their tags are free (R444). -/
def State.keepFlights (s : State) (l : List Flight) : State :=
  s.setFlights (l.filter fun f => !(f.discard && decide (f.phase = .done)))

/-- A trace entry of an engine (R377). -/
def State.trace (s : State) (e : Nat) (kind : BitVec 3) (tag : BitVec 12) : State :=
  let g := s.engine e
  let l := g.trace ++ [{ pc := g.micro.pc, kind := kind, tag := tag, time := word s.time.ns }]
  s.setEngine e { g with trace := l.drop (l.length - 1024) }

/-- The command has made its final write and an internal task of it runs: a flush, an activation, or a live patch. -/
def State.inTask (s : State) (c : Cmd) : Bool :=
  (s.tbl.flushes.any fun f => decide (f.cmd = c)) ||
  (match s.parish.act with | some a => decide (a.cmd = some c) | none => false) ||
  (match s.stw.patch with | some p => decide (p.cmd = c) | none => false)

/-- A flight whose command is in the hands of engine `e` and has not made its final write. -/
def State.inHand (s : State) (e : Nat) (f : Flight) : Bool :=
  decide (f.phase = .running) && !f.rejected && decide (cmdEngine f.cmd = e) && !s.hasResult f.cmd && !s.inTask f.cmd

/-- The flight whose command an engine has in hand. -/
def State.handFlight (s : State) (e : Nat) : Option Flight :=
  match (s.engine e).micro.inHand with
  | some (src, tag, q) =>
    s.cif.flights.find? fun f => decide (f.cmd.src = src) && decide (f.cmd.tag = tag) && decide (f.cmd.queue = q) && s.inHand e f
  | none => none

/-- A command as an engine names the one in hand: its sender, tag and queue. -/
def handOf (c : Cmd) : Sender × BitVec 12 × BitVec 4 := (c.src, c.tag, c.queue)

/-- An engine that has no command in hand takes this one; one that has keeps it (Table 11-8).
(DESIGN CHOICE: log entry 213.) -/
def State.takeHand (s : State) (e : Nat) (c : Cmd) : State :=
  if (s.handFlight e).isSome then s
  else
    let g := s.engine e
    s.setEngine e { g with micro := { g.micro with inHand := some (handOf c) } }

/-- The command begins at its target: BUSY for a stopped die (R35), HW_FAULT for a failed unit, held during a patch, and
otherwise handed to its steward. -/
def State.begin_ (s : State) (f : Flight) (late : Bool) : State × Flight :=
  let c := f.cmd
  let e := cmdEngine c
  if s.targetStopped c then s.finish c stBusy f
  else if s.pwr.ready = true ∧ s.unitFault c = true then s.finish c stHwFault f
  else if s.engineHeld e then
    if 512 ≤ s.heldCount then s.finish c stQueueFull f else (s, { f with phase := .held, late := late })
  else
    let s := if c.level.toNat = 4 then { s with pwr := { s.pwr with blocksOn := tins s.pwr.blocksOn c.unit.toNat () } } else s
    let s := s.takeHand e c
    (s.trace e 0 c.tag, { f with phase := .running, late := late })

/-- The command reaches the head of its queue: passed on into the parish, stored for its beat, or begun (R350, R418). Before
READY every opcode but two is BUSY, with or without a beat (R330). (DEDUCED: log entry 154.) -/
def State.dispatch (s : State) (f : Flight) : State × Flight :=
  let c := f.cmd
  if s.pwr.ready = false ∧ aonOpcode c.opcode.toNat = false then s.finish c stBusy f
  else if c.device ≠ s.parish.device then
    match s.childFor c.device.toNat with
    | none => s.finish c stNotFound f
    | some p =>
      let t := s.freeFtag
      let s := { s with parish := { s.parish with nextFtag := (t + 1) % 4096 } }
      (s.sendCommand c t p, { f with phase := .forwarded t 0 })
  else if c.atBeat then
    let b := s.time.extend c.low
    if s.time.tooLate b then
      if c.strictTime then s.finish c stTimePassed f else s.begin_ f true
    else if 256 ≤ s.storedCount then s.finish c stQueueFull f
    else
      let f := { f with phase := .stored (BitVec.ofNat 48 b) }
      (s, if c.unordered && !c.noReply && !f.discard then { f with pending := some (s.mkReply c stPending [] false) } else f)
  else s.begin_ f false

/-- Whether the next flight of a queue may begin, given the flights before it: an ordered one waits for every earlier
ordered one, an UNORDERED one for earlier barriers of its queue, a BARRIER for its whole channel (R347 to R349). -/
def mayBegin (src : Sender) (q : Nat) (before : List Flight) (f : Flight) : Bool :=
  let open_ := before.filter Flight.open_
  if f.barrier then !(open_.any fun g => sameChannel g.cmd.src src)
  else if f.cmd.unordered then !(open_.any fun g => inQueue src q g && g.barrier)
  else !(open_.any fun g => inQueue src q g && !g.cmd.unordered)

/-- The flights of a list split at the first one of a queue that waits and may begin. -/
def splitWaiting (src : Sender) (q : Nat) (before : List Flight) : List Flight → Option (List Flight × Flight × List Flight)
  | [] => none
  | f :: fs =>
    if inQueue src q f && decide (f.phase = .waiting) && mayBegin src q before f then some (before, f, fs)
    else splitWaiting src q (before ++ [f]) fs

/-- The number of a queue in the round robin of R347: the command rings by function and ring, the management bus, then the
in-band senders by device number. (DESIGN CHOICE: log entry 160.) -/
def queueTurn : Sender → Nat → Nat
  | .pcie f, q => 16 * f + q
  | .mgmt, _ => 256
  | .inband d, _ => 257 + d

/-- How many queues the round robin goes over. -/
def queueTurns : Nat := 257 + 16385

/-- How many turns it is to a queue's turn. -/
def State.turnsTo (s : State) (src : Sender) (q : Nat) : Nat := (queueTurn src q + queueTurns - s.cif.nextTurn) % queueTurns

/-- A queue has a command that the central steward can hand over now. -/
def State.hasNext (s : State) (src : Sender) (q : Nat) : Bool :=
  match splitWaiting src q [] s.cif.flights with
  | some (_, f, _) => !s.fenceWait f.cmd
  | none => false

/-- It is the queue's turn: no other queue with a command to hand over comes first (R347). -/
def State.queueFirst (s : State) (src : Sender) (q : Nat) : Bool :=
  s.cif.flights.all fun f =>
    !(s.hasNext f.cmd.src f.ring.toNat && decide (s.turnsTo f.cmd.src f.ring.toNat < s.turnsTo src q))

/-- The central steward takes its turn at a queue: one command. -/
def execCommandDispatch (src : Sender) (q : Nat) (s : State) : Res :=
  .next
    (match splitWaiting src q [] s.cif.flights with
      | none => s
      | some (before, f, after) =>
        if s.fenceWait f.cmd = true ∨ s.queueFirst src q = false then s
        else
          let m := { s with cif := { s.cif with nextTurn := (queueTurn src q + 1) % queueTurns } }.unitMeets dCmdBuf (senderChannel src)
          match m.2 with
          | none =>
            let x := m.1.dispatch f
            x.1.keepFlights (before ++ x.2 :: after)
          | some a =>
            -- a pattern that waits in the command's words: the command ends, none of it done
            let x := m.1.finish f.cmd stAborted f
            (x.1.keepFlights (before ++ x.2 :: after)).detectWithin dCmdBuf (senderChannel src) a 1 20000 0 true)

/-- A result answers a command. -/
def answers (r : Reply) (c : Cmd) : Bool := decide (r.src = c.src) && decide (r.tag = c.tag) && decide (r.queue = c.queue)

/-- The list without the first result of a command, and that result. -/
def takeResult (c : Cmd) : List Reply → Option (Reply × List Reply)
  | [] => none
  | r :: rs => if answers r c then some (r, rs) else (takeResult c rs).map fun x => (x.1, r :: x.2)

/-- A command has taken effect or failed: its final reply is ready, or is suppressed (R352), or is discarded with its
function's reset (R444). (DESIGN CHOICE: log entry 24.) -/
def State.conclude (s : State) (f : Flight) (r : Reply) : State :=
  let is (g : Flight) : Bool := decide (g.cmd = f.cmd) && !g.rejected
  let ok := decide (r.status = 0)
  let s := s.countDone f.cmd f.priv ok
  if f.discard then (s.setFlights (dropFirst is s.cif.flights)).emit (.discarded (match f.cmd.src with | .pcie n => n | _ => 0))
  else if ok && f.cmd.noReply then s.setFlights (dropFirst is s.cif.flights)
  else s.setFlights (modFirst is (fun g => { g with phase := .done, reply := some { r with late := r.late || g.late } }) s.cif.flights)

/-- The engine has a command in hand no more; the next of those that it runs, from other queues, is the one in hand then. -/
def State.letGo (s : State) (c : Cmd) : State :=
  let e := cmdEngine c
  let g := s.engine e
  if g.micro.inHand = some (handOf c) then
    let next := s.cif.flights.find? fun f => s.inHand e f && decide (handOf f.cmd ≠ handOf c)
    s.setEngine e { g with micro := { g.micro with inHand := next.map fun f => handOf f.cmd } }
  else s

/-- The block holds a configured port. -/
def State.blockUsed (s : State) (b : Nat) : Bool := (tkeys s.ports).any fun p => decide (laneBlock p = b)

/-- The branch of a port block that a command has woken stops again once it ends: the block holds no port, is not kept running, and
serves no other command (R441). (DESIGN CHOICE: log entry 199.) -/
def State.restBlock (s : State) (f : Flight) : State :=
  let b := f.cmd.unit.toNat
  let busy := s.cif.flights.any fun g => decide (g ≠ f) && decide (g.phase = .running) && decide (g.cmd.level = 4) && decide (g.cmd.unit = f.cmd.unit)
  if f.cmd.level = 4 ∧ s.blockUsed b = false ∧ thas s.pwr.keepOn b = false ∧ busy = false then
    { s with pwr := { s.pwr with blocksOn := tdel s.pwr.blocksOn b } }
  else s

/-- A command that its engine runs ends with a reply: out of the engine's hands, with an entry of the trace (R377). -/
def State.endCmd (s : State) (f : Flight) (r : Reply) : State :=
  let s := if f.phase = .running then ((s.letGo f.cmd).trace (cmdEngine f.cmd) 1 f.cmd.tag).restBlock f else s
  s.conclude f r

/-- The final write of a command is made: its result becomes its final reply (R334, R395). The microcycles it took are free. -/
def execCommandComplete (src : Sender) (q : Nat) (tag : BitVec 12) (s : State) : Res :=
  .next
    (match s.cif.flights.find? fun f => isTag src q tag f && !f.rejected with
      | none => s
      | some f =>
        match f.phase, takeResult f.cmd s.cif.results with
        | .done, _ => s
        | .stored _, _ => s
        | .waiting, _ => s
        | .held, _ => s
        | _, none => s
        | _, some (r, rest) =>
          let x := { s with cif := { s.cif with results := rest } }.fresh
          let s := x.2.perf
            { event := 0x013, priv := some f.priv, chan := some f.cmd.src, addr := some f.cmd.unit.toNat } (x.1 % 65537)
          s.endCmd f r)

/-- What a handback hands to a region steward: held AT_BEAT commands by R350 applied now, the rest as they are (R374). -/
def State.release (s : State) (e : Nat) : State :=
  let x := s.cif.flights.foldl
    (fun (a : State × List Flight) f =>
      if f.phase = .held ∧ cmdEngine f.cmd = e then
        if f.cmd.atBeat ∧ f.cmd.strictTime then
          let y := a.1.finish f.cmd stTimePassed f
          (y.1, a.2 ++ [y.2])
        else if a.1.fenceWait f.cmd then (a.1, a.2 ++ [{ f with phase := .waiting }])
        else
          let y := a.1.begin_ f (f.late || f.cmd.atBeat)
          (y.1, a.2 ++ [y.2])
      else (a.1, a.2 ++ [f])) (s, [])
  x.1.keepFlights x.2

/-! ### Replies (R334, R338, R343) -/

/-- The reply of a queue that is to be written next, with whether it is a PENDING reply. -/
def nextReply (src : Sender) (q : Nat) (before : List Flight) : List Flight → Option (Flight × Reply × Bool)
  | [] => none
  | f :: fs =>
    let mine := inQueue src q f
    match f.pending, f.reply with
    | some r, _ => if mine then some (f, r, true) else nextReply src q (before ++ [f]) fs
    | none, some r =>
      if mine && decide (f.phase = .done) &&
          (f.cmd.unordered || !(before.any fun g => inQueue src q g && !g.cmd.unordered)) then some (f, r, false)
      else nextReply src q (before ++ [f]) fs
    | none, none => nextReply src q (before ++ [f]) fs

/-- A reply has been written: its flight ends, or goes on after a PENDING reply. (DEDUCED: log entry 25.) -/
def State.written (s : State) (f : Flight) (pending : Bool) : State :=
  let is (g : Flight) : Bool := decide (g = f)
  s.setFlights (if pending then modFirst is (fun g => { g with pending := none }) s.cif.flights else dropFirst is s.cif.flights)

/-- Writes bytes to a mailbox, entry by entry; the first may share its cycle with the last read. -/
def Mailbox.pushAll (m : Mailbox) (same : Bool) : List (List Byte) → Mailbox
  | [] => m
  | e :: es => (m.push e same).pushAll false es

/-- The 64-byte entries of a byte list, the last padded with zeros. -/
def entries64 (bs : List Byte) : List (List Byte) :=
  let p := padBytes bs 64
  (List.range (p.length / 64)).map fun i => (p.drop (64 * i)).take 64

/-- The next reply of a queue is written, or waits for room. (DEDUCED: log entry 20.) -/
def execReplyWrite (src : Sender) (q : Nat) (room : Room) (s : State) : Res :=
  .next
    (match nextReply src q [] s.cif.flights with
      | none => s
      | some (f, r, pending) =>
        let bs := replyBytes r
        match src with
        | .pcie fn =>
          let rq := (s.cmdRing fn q).replyQ.toNat
          let x := s.rplRing fn rq
          let ring : Ring := { en := x.en, sizeLog2 := x.sizeLog2, producer := x.producer, consumer := x.consumer }
          if x.en = false ∨ s.cif.pcieUp = false then s
          else
            let u := padBytes bs 64
            let others := x.blocked.filter fun e => decide (e ≠ (q, r))
            let y := (ring.ready u.length room.consumer).1
            if y.fits u.length then
              (((s.setRplRing fn rq
                { x with producer := (y.put u.length).producer, consumer := y.consumer, blocked := others }).written f
                  pending).emit (.ringUnit 0 fn rq [] u)).msix fn rq
            else s.setRplRing fn rq { x with consumer := y.consumer, blocked := others ++ [(q, r)] }
        | .mgmt =>
          let es := entries64 bs
          let m := s.aon.rplBox
          if s.aon.vaux = false ∨ 256 < m.fill + es.length ∨ 256 ≤ m.fillFor room.same then s
          else { s with aon := { s.aon with rplBox := m.pushAll room.same es } }.written f pending
        | .inband _ =>
          match s.upstream with
          | none => s
          | some p =>
            let s := (s.written f pending).queueRiwen p rwReply 0 bs
            if pending then s
            else { s with parish := { s.parish with
              stored := (s.parish.stored ++ [(f.cmd, r)]).drop (s.parish.stored.length + 1 - 64) } })

end Sys2Proof.Machine
end

