-- ==== Sys2Proof/Machine/Interface.lean ====
section
/-!
DEFINITION. The command interface: the configuration commands of group 0x01, the registers of BAR0 and of the management
bus, the mailboxes, event delivery, host packets, and the resets of PCIe functions (R328 to R344, R356 to R362, R444, R466).
-/

namespace Sys2Proof.Machine

/-! ### Group 0x01 -/

/-- A command at level 6 is for the manager; another device has no such target. (DEDUCED: log entry 15.) -/
def State.levelHere (s : State) (c : Cmd) : Bool := decide (c.level ≠ 6) || decide (s.parish.role = roleManager)

/-- NOP (R361). -/
def nopAct (s : State) : State × Option Ans := done s

def execNop (c : Cmd) (s : State) : Res := .next (runCmd 0x0103 c s nopAct)

/-- Every command accepted before this one in its channel has taken effect (R349). -/
def State.channelClear (s : State) (c : Cmd) : Bool :=
  (s.cif.flights.takeWhile fun f => decide (f.cmd ≠ c)).all fun f => !(sameChannel f.cmd.src c.src && f.open_)

/-- DESIGN CHOICE: log entry 19. -/
def barrierAct (s : State) : State × Option Ans := done s

/-- BARRIER: until the commands before it have taken effect, it waits. -/
def execBarrier (c : Cmd) (s : State) : Res := .next (if s.channelClear c then runCmd 0x0104 c s barrierAct else s)

/-- A channel may act on function `f`: its own, or any at privilege 3 (Table 10-12). -/
def State.ownFn (s : State) (c : Cmd) (f : Nat) : Bool :=
  decide (s.cmdPriv c = 3) || match c.src with | .pcie n => decide (n = f) | _ => false

/-- Commands of a function in flight (R345) that use one of its command rings, other than `c`: until their final reply is
written. -/
def State.ringBusy (s : State) (c : Cmd) (fn : Nat) (uses : Nat → Bool) : Bool :=
  s.cif.flights.any fun f => decide (f.cmd.src = .pcie fn) && uses f.ring.toNat && !f.rejected && decide (f.cmd ≠ c)

/-- A command queue is mapped to another reply ring: the replies of it that found no room on the old one are held there no more. -/
def Func.unblock (f : Func) (q : Nat) : Func :=
  { f with rplRings := f.rplRings.map fun (e : Nat × CRing) => (e.1, { e.2 with blocked := e.2.blocked.filter fun b => decide (b.1 ≠ q) }) }

/-- QUEUE_CONFIG (R337, R339, Table 10-12). (DEDUCED: log entry 26.) -/
def queueConfigAct (c : Cmd) (s : State) : State × Option Ans :=
  let w0 := wd c.words 0
  let w1 := wd c.words 1
  let q := fld w0 0 4
  let fn := fld w0 5 4
  let z := fld w1 1 5
  let ring : CRing :=
    { en := bit w1 0, sizeLog2 := BitVec.ofNat 5 z, base := BitVec.ofNat 64 (wd64 c.words 2)
      ctrl := BitVec.ofNat 64 (wd64 c.words 4), replyQ := if bit w0 4 then 0 else BitVec.ofNat 4 (fld w1 6 4) }
  let uses (k : Nat) : Bool := if bit w0 4 then decide ((s.cmdRing fn k).replyQ.toNat = q) else decide (k = q)
  if s.ownFn c fn = false then fail s stNoPrivilege
  else if q = 0 ∨ z < 12 ∨ 24 < z ∨ ringAligned c.words = false then fail s stBadParam
  else if bit w1 0 = false ∧ s.ringBusy c fn uses = true then fail s stBusy
  else if bit w0 4 then done (s.setRplRing fn q ring)
  else
    let f := if (s.cmdRing fn q).replyQ = ring.replyQ then s.func fn else (s.func fn).unblock q
    done ((s.setFunc fn { f with doorbells := tdel f.doorbells q }).setCmdRing fn q ring)

def execQueueConfig (c : Cmd) (s : State) : Res := .next (runCmd 0x0105 c s (queueConfigAct c))

def EpochState.code : EpochState → Nat
  | .idle => 0 | .staging => 1 | .scheduled => 2 | .cleaning => 3

/-- EPOCH_STATUS (R353, R362). -/
def epochStatusAct (c : Cmd) (s : State) : State × Option Ans :=
  let e := fld (wd c.words 0) 0 16
  if e = 0 ∨ s.levelHere c = false then fail s stBadParam
  else
    match s.epoch? e with
    | none => done s [0, 0, 0, 0]
    | some x =>
      done s ([pack [(0, x.state.code), (2, b2n (x.slot.getD false))], word x.changes] ++
        wordsOf (if x.state = .scheduled then x.thaw.toNat else 0) 2)

def execEpochStatus (c : Cmd) (s : State) : Res := .next (runCmd 0x0106 c s (epochStatusAct c))

/-- The 1,024 bits of a port map from its 32 words. -/
def mapOf (ws : List Word) : BitVec 1024 := BitVec.ofNat 1024 (natOfBytes (wordsToBytes ws))

/-- FUNCTION_RIGHTS (R329). -/
def functionRightsAct (c : Cmd) (s : State) : State × Option Ans :=
  let f := fld (wd c.words 0) 0 5
  let w := wd c.words 1
  let m := fld w 1 2
  let map := mapOf ((c.words.drop 2).take 32)
  let put (s : State) (r : Rights) : State := { s with cif := { s.cif with rights := tset s.cif.rights f {} r } }
  if f = 0 ∨ 16 < f then fail s stBadParam
  else if f = 16 then
    if bit w 0 = true ∨ s.cif.mgmtPriv.toNat < m then fail s stBadParam
    else
      let s := { s with cif := { s.cif with mgmtPriv := BitVec.ofNat 2 m } }
      done (put s { map := map })
  else if m ≠ 0 then fail s stBadParam
  else done (put s { config := bit w 0, map := map })

def execFunctionRights (c : Cmd) (s : State) : Res := .next (runCmd 0x0109 c s (functionRightsAct c))

/-- The destination of events that a channel has as its own. (DEDUCED: log entry 28.) -/
def ownDest : Sender → Nat
  | .pcie f => f
  | .mgmt => 16
  | .inband _ => 17

/-- EVENT_CONFIG (R356): the mask at once; a ring that changes starts anew, with the held events kept. -/
def eventConfigAct (c : Cmd) (s : State) : State × Option Ans :=
  let d := fld (wd c.words 0) 0 5
  let w := wd c.words 1
  let z := fld w 15 5
  let mask : BitVec 14 := BitVec.ofNat 14 (fld w 1 13 * 2)
  let old := tget s.cif.dests d {}
  let ring := Ring.fresh (bit w 14) d z (wd64 c.words 2) (wd64 c.words 4)
  let same := decide (ring.en = old.ring.en ∧ ring.sizeLog2 = old.ring.sizeLog2 ∧ ring.base = old.ring.base ∧ ring.ctrl = old.ring.ctrl)
  let put (r : Ring) : State × Option Ans :=
    done { s with cif := { s.cif with dests := tset s.cif.dests d {} { mask := mask, ring := r } } }
  if 17 < d then fail s stBadParam
  else if s.cmdPriv c < 3 ∧ d ≠ ownDest c.src then fail s stNoPrivilege
  else if 16 ≤ d ∧ (bit w 14 = true ∨ z ≠ 0 ∨ wd64 c.words 2 ≠ 0 ∨ wd64 c.words 4 ≠ 0) then fail s stBadParam
  else if bit w 14 = true ∧ (z < 16 ∨ 30 < z) then fail s stBadParam
  else if 16 ≤ d ∨ same = true then put old.ring
  else put ring

def execEventConfig (c : Cmd) (s : State) : Res := .next (runCmd 0x010A c s (eventConfigAct c))

/-- HOST_RING_CONFIG (R359, R360, R466). (DEDUCED: log entry 27.) -/
def hostRingConfigAct (c : Cmd) (s : State) : State × Option Ans :=
  let w := wd c.words 1
  let z := fld w 1 5
  match c.src with
  | .pcie fn =>
    if bit w 0 = true ∧ (z < 16 ∨ 30 < z) then fail s stBadParam
    else
      let r := Ring.fresh (bit w 0) fn z (wd64 c.words 2) (wd64 c.words 4)
      if bit (wd c.words 0) 0 then done (s.setFunc fn { s.func fn with hostTx := r, hostDoorbell := 0 })
      else done (s.setFunc fn { s.func fn with hostRx := r })
  | _ => fail s stBadParam

def execHostRingConfig (c : Cmd) (s : State) : Res := .next (runCmd 0x010B c s (hostRingConfigAct c))

/-- HOST_CODE_MAP (R359). -/
def hostCodeMapAct (c : Cmd) (s : State) : State × Option Ans :=
  let w := wd c.words 0
  done { s with cif := { s.cif with codeMap := tset s.cif.codeMap (fld w 0 8) 0 (BitVec.ofNat 4 (fld w 8 4)) } }

def execHostCodeMap (c : Cmd) (s : State) : Res := .next (runCmd 0x010C c s (hostCodeMapAct c))

/-! ### BAR0 (R337, R339, Table 10-6) -/

/-- BAR0 of a function can be reached. -/
def State.barOpen (s : State) : Bool := s.cif.pcieUp

/-- A command doorbell: a PRODUCER more than the ring's size ahead of CONSUMER stops the queue (R337). -/
def execCmdDoorbell (fn q : Nat) (producer : BitVec 64) (s : State) : Res :=
  onNum (decide (fn < 16) && decide (q < 16))
    (if s.barOpen = false then s
    else
      let f := s.func fn
      let s := s.setFunc fn { f with doorbells := tset f.doorbells q 0 producer }
      let r := s.cmdRing fn q
      if r.en = false ∨ r.stopped = true then s
      else
        s.setCmdRing fn q
          { r with producer := producer, stopped := decide (r.size < (producer - r.consumer).toNat) })

/-- The host transmit doorbell (R360). -/
def execHostTxDoorbell (fn : Nat) (producer : BitVec 64) (s : State) : Res :=
  onNum (decide (fn < 16))
    (if s.barOpen = false then s
    else
      let f := s.func fn
      s.setFunc fn
        { f with
            hostDoorbell := producer
            hostTx := if f.hostTx.en then { f.hostTx with producer := producer } else f.hostTx })

/-- The value's size field, bits [5:1], is one that a command or reply ring has. -/
def adminSizeOk (v : BitVec 64) : Bool :=
  decide (12 ≤ v.toNat / 2 % 32) && decide (v.toNat / 2 % 32 ≤ 24)

/-- A write of ADMIN_CMD_ENABLE with ADMIN_CMD_SIZE_LOG2: setting the enable starts queue 0 at PRODUCER and CONSUMER 0.
(DEDUCED: log entry 29.) -/
def execAdminCmdEnable (fn : Nat) (value : BitVec 64) (s : State) : Res :=
  onNum (decide (fn < 16))
    (if s.barOpen = false then s
    else
      let f := s.func fn
      if adminSizeOk value = false then s.setFunc fn { f with regStopped := true }
      else
        let z : BitVec 5 := value.extractLsb' 1 5
        let en := value.getLsbD 0
        let s := s.setFunc fn
          { f with
              adminCmdEn := en, adminCmdSize := z, regStopped := if en then false else f.regStopped
              doorbells := if en then tdel f.doorbells 0 else f.doorbells }
        s.setCmdRing fn 0 { en := en, sizeLog2 := z, base := f.adminCmdBase, ctrl := f.adminCmdCtrl })

/-- A write to a register of Table 10-6 without a row of its own. -/
def Func.write (f : Func) (offset : Nat) (v : BitVec 64) : Func :=
  let bad := { f with regStopped := true }
  match offset with
  | 0x0100 => if v.toNat % 4096 = 0 then { f with adminCmdBase := v } else bad
  | 0x0108 => if v.toNat % 64 = 0 then { f with adminCmdCtrl := v } else bad
  | 0x0118 => if v.toNat % 4096 = 0 then { f with adminRplBase := v } else bad
  | 0x0120 => if v.toNat % 64 = 0 then { f with adminRplCtrl := v } else bad
  | 0x0128 =>
    if adminSizeOk v then
      let z : BitVec 5 := v.extractLsb' 1 5
      { f with
          adminRplEn := v.getLsbD 0, adminRplSize := z
          rplRings := tins f.rplRings 0
            { en := v.getLsbD 0, sizeLog2 := z, base := f.adminRplBase, ctrl := f.adminRplCtrl } }
    else bad
  | _ => f

/-- Clears the bits of a mailbox that a write of ones to [4:2] names: UNDERRUN, OVERRUN, LEVEL_HIT. -/
def Mailbox.clear (m : Mailbox) (w : Nat) : Mailbox :=
  { m with
      underrun := m.underrun && !(w.testBit 2), overrun := m.overrun && !(w.testBit 3), levelHit := m.levelHit && !(w.testBit 4) }

/-- LEVEL from its field; a value above 256 is none. (DEDUCED: log entry 30.) -/
def Mailbox.setLevel (m : Mailbox) (n : Nat) : Mailbox := if n ≤ 256 then { m with level := BitVec.ofNat 9 n } else m

/-- A write to a management bus register without a row of its own (Table 10-7). -/
def Aon.write (a : Aon) (code : Nat) (v : BitVec 64) : Aon :=
  let n := v.toNat
  match code with
  | 0x10 => { a with cmdBox := a.cmdBox.clear n, rplBox := a.rplBox.clear (n / 256), evtBox := a.evtBox.clear (n / 65536) }
  | 0x12 =>
    { a with
        cmdBox := a.cmdBox.setLevel (n % 512), rplBox := a.rplBox.setLevel (n / 512 % 512)
        evtBox := a.evtBox.setLevel (n / 262144 % 512) }
  | 0x13 =>
    { a with
        cmdBox := { a.cmdBox with intEn := n.testBit 0 }, rplBox := { a.rplBox with intEn := n.testBit 1 }
        evtBox := { a.evtBox with intEn := n.testBit 2 } }
  | _ => a

/-- The boot window takes bytes from stage 3 until READY (R448). (DEDUCED: log entry 32.) -/
def State.bootWindow (s : State) : Bool := decide (3 ≤ s.aon.stage.toNat) && !s.pwr.ready

/-- Lists bytes at an offset of the window; zeros are not listed. -/
def putBytes (t : Tab Byte) (o : Nat) : List Byte → Tab Byte
  | [] => t
  | b :: bs => putBytes (tset t o 0 b) (o + 1) bs

/-- A register write. -/
def execRegisterWrite (bus : RegBus) (offset : Nat) (value : BitVec 64) (s : State) : Res :=
  match bus with
  | .bar0 fn => onNum (decide (fn < 16)) (if s.barOpen then s.setFunc fn ((s.func fn).write offset value) else s)
  | .bar2 =>
    .next
      (if s.bootWindow ∧ offset + 8 ≤ 0xFFF00 then
        { s with aon := { s.aon with bar2 := putBytes s.aon.bar2 offset (bytesOf value.toNat 8) } }
      else s)
  | .mgmt => .next (if s.aon.vaux then { s with aon := s.aon.write offset value } else s)
  | .jtag => .next (if s.aon.vaux then { s with aon := { s.aon with jtagIr := value.setWidth 8 } } else s)

/-! ### Mailboxes (R340 to R344) -/

/-- A block write of 64 bytes to CMD_FIFO: it pushes one entry, or is ignored with OVERRUN and MAILBOX_OVERRUN. In the ACLK
cycle in which the device took an entry (`w.same`), it is judged against the pointers at the cycle's start (R341). -/
def execCmdFifo (w : BoxWrite) (s : State) : Res :=
  .next
    (if s.aon.vaux = false then s
    else
      let m := s.aon.cmdBox
      let f := m.fillFor w.same
      if f < 256 then s.setCmdBox (m.push w.data w.same)
      else
        let n := satAdd 32 s.cif.ignoredWrites 1
        let t := { s with aon := { s.aon with cmdBox := { m with overrun := true }, discarding := true } }
        if m.overrun then { t with cif := { t.cif with ignoredWrites := n } }
        else ({ t with cif := { t.cif with ignoredWrites := 0 } }).hold 0 16 0x0104 [word f, n])

/-- A block read of a mailbox (R341): the next entry, or the last one read with UNDERRUN. Of the two accesses of one ACLK cycle
the read's row comes first, and the write's tells of it. -/
def Mailbox.read (m : Mailbox) : Mailbox :=
  if m.fill = 0 then { m.cycle with underrun := true }
  else
    let x := m.pop
    { x.1 with last := x.2 }

def execRplFifo (s : State) : Res :=
  .next (if s.aon.vaux then { s with aon := { s.aon with rplBox := s.aon.rplBox.read } } else s)

def execEvtFifo (s : State) : Res :=
  .next (if s.aon.vaux then { s with aon := { s.aon with evtBox := s.aon.evtBox.read } } else s)

/-- RESYNC: writing 1 empties CMD and clears DISCARDING (R343). -/
def execResync (value : Word) (s : State) : Res :=
  .next
    (if s.aon.vaux = true ∧ bit value 0 = true then
      { s with aon := { s.aon with
          discarding := false, cmdBox := { s.aon.cmdBox with entries := [], rptr := s.aon.cmdBox.wptr } } }
    else s)

/-! ### Event delivery (R356 to R358) -/

/-- The 16 words of an event record (Table 10-8). -/
def EvRec.words (r : EvRec) : List Word :=
  let pay := r.payload ++ List.replicate (9 - r.payload.length) 0
  [pack [(0, r.code), (16, r.source), (24, r.gen.toNat)], r.seq] ++ wordsOf r.beat.toNat 2 ++ wordsOf r.ns 2 ++
    [word r.frac.toNat] ++ pay.take 9

/-- The next record that a source delivers: EVENT_OVERFLOW first when every held place has gone (R357). -/
def EvHold.next (h : EvHold) (s : State) (source : Nat) : Option (EvRec × EvHold) :=
  match h.held with
  | r :: rest => some (r, { h with held := rest })
  | [] =>
    if h.lost = 0 then none
    else some (s.evRec source evOverflow [h.lost, h.firstLost] h.seq, { h with seq := h.seq + 1, lost := 0 })

/-- A destination takes a record now: its state with the record written; none where it cannot. -/
def State.takeEvent (s : State) (dest : Nat) (r : EvRec) (room : Room) : Option State :=
  if dest < 16 then
    let d := tget s.cif.dests dest {}
    if d.ring.en = false ∨ s.cif.pcieUp = false then none
    else
      let x := (d.ring.ready 64 room.consumer).1
      if x.fits 64 then
        let s := { s with cif := { s.cif with dests := tins s.cif.dests dest { d with ring := x.put 64 } } }
        some ((s.emit (.ringUnit 1 dest 0 r.words [])).msix dest 16)
      else none
  else if dest = 16 then
    let m := s.aon.evtBox
    if s.aon.vaux = false ∨ 256 ≤ m.fill ∨ 256 ≤ m.fillFor room.same then none
    else some { s with aon := { s.aon with evtBox := m.push (wordsToBytes r.words) room.same } }
  else
    match s.upstream with
    | none => none
    | some p => if s.riwenPort p then some (s.queueRiwen p rwEvent 0 (wordsToBytes r.words)) else none

/-- A region source under a live patch delivers nothing until its handback (R374). -/
def State.sourceHeld (s : State) (source : Nat) : Bool :=
  match s.stw.patch with
  | some p => decide (1 + p.region = source)
  | none => false

/-- A source delivers its next event to a destination, if that can take it. -/
def execEventDelivery (source dest : Nat) (room : Room) (s : State) : Res :=
  onNum (decide (source < 5) && decide (dest < 18))
    (let k := source * 32 + dest
    if s.sourceHeld source then s
    else
      match (tget s.cif.holds k {}).next s source with
      | none => s
      | some (r, h) =>
        match s.takeEvent dest r room with
        | none => s
        | some t =>
          ({ t with cif := { t.cif with holds := tins t.cif.holds k h } }).perf
            { event := 0x050, chan := some (destSender dest) })

/-! ### Host packets (R359, R360) -/

/-- The status of a transmit descriptor whose function lacks the right. -/
def txNotPermitted : Nat := 0xFE

/-- What refuses a host frame of length `len` to queue `q`, if anything does. -/
def State.txRefused (s : State) (fn len q : Nat) : Option Nat :=
  let p := queuePort q
  let priv := s.privilege (.pcie fn)
  if ¬ (priv = 3 ∨ (priv = 2 ∧ s.permitted (.pcie fn) p = true)) then some txNotPermitted
  else if s.isUp p = false then some rsPortDown
  else if (s.port p).maxFrame.toNat < len then some rsOversize
  else if len < 64 then some rsRunt
  else if s.noCrossing { id := 0, egress := some p } then some rsPeerDieDown
  else none

/-- The device takes the next descriptor of a host transmit ring: its frame goes to the named queue with no lookup and no
edit, or is refused. (DEDUCED: log entry 31.) -/
def execHostTxDescriptor (fn : Nat) (desc : List Word) (data : List Byte) (s : State) : Res :=
  onNum (decide (fn < 16))
    (let f := s.func fn
    let r := f.hostTx
    if s.cif.pcieUp = false ∨ r.en = false ∨ r.producer = r.consumer then s
    else
      let s := (s.setFunc fn { f with hostTx := { r with consumer := r.consumer + 32 } }).emit
        (.consumer fn r.ctrl (r.consumer + 32))
      let len := fld (wd desc 2) 0 14
      let w := wd desc 3
      let q := fld w 0 14
      let h : HostTx := { fn := fn, pos := r.consumer, tsReq := bit w 14, stampId := w.extractLsb' 16 16 }
      let k : Pkt :=
        { id := s.nextPkt, root := s.nextPkt, len := len, data := data.take (len - 4), stampNs := s.time.ns
          stepSum := s.time.stepSum, egress := some (queuePort q), qidx := BitVec.ofNat 4 (queueIdx q), hostTx := some h }
      match s.txRefused fn len q with
      | some st => (s.emit (.txDone fn r.consumer st)).stampLost q k
      | none => { s with nextPkt := s.nextPkt + 1, arrivals := s.arrivals ++ [k] })

/-- The unit of a host receive ring (Table 10-10). -/
def HostUnit.bytes (u : HostUnit) : List Byte :=
  let k := u.pkt
  let head := [pack [(0, k.ingress.getD 0), (10, k.cls.toNat), (14, u.code.toNat), (22, b2n u.trap)], word k.len,
    word u.reason.toNat, word k.stampNs, word k.stampFrac.toNat, 0, 0, 0]
  padBytes (wordsToBytes head ++ k.data ++ fcsBytes k.data) 32

/-- The oldest packet of a function's host path is written to its receive ring, or waits. -/
def execHostReceiveWrite (fn : Nat) (consumer : BitVec 64) (s : State) : Res :=
  onNum (decide (fn < 16))
    (let f := s.func fn
    match tget s.tally.hostPath fn [] with
    | [] => s
    | u :: rest =>
      if f.hostRx.en = false ∨ s.cif.pcieUp = false then s
      else
        let bs := u.bytes
        let x := (f.hostRx.ready bs.length consumer).1
        if x.fits bs.length then
          let s := s.setFunc fn { f with hostRx := x.put bs.length }
          let s := { s with tally := { s.tally with hostPath := tset s.tally.hostPath fn [] rest } }
          (s.emit (.ringUnit 3 fn 0 [] bs)).msix fn 17
        else s.setFunc fn { f with hostRx := x })

/-! ### Resets of PCIe functions (R444) -/

/-- What the reset of a function does to a flight: accepted commands go on, their replies are discarded. -/
def resetFlights (fn : Nat) (l : List Flight) : List Flight :=
  (l.filter fun f => !(decide (f.cmd.src = .pcie fn) && decide (f.phase = .done))).map fun f =>
    if f.cmd.src = .pcie fn then { f with discard := true, pending := none } else f

/-- The replies that the reset of a function discards at once. -/
def droppedReplies (fn : Nat) (l : List Flight) : Nat :=
  (l.filter fun f => decide (f.cmd.src = .pcie fn) && decide (f.phase = .done)).length

/-- BAR2 of function 0 and its registers return to their reset values (Table 14-3). -/
def Aon.resetBar2 (a : Aon) : Aon := { a with bar2 := [], bootState := 0, bootCause := 0, bootRegion := false }

/-- Resets the state of one function: its queues and rings of every kind return to their reset values.
(DEDUCED: log entry 33.) -/
def State.resetFn (s : State) (fn : Nat) : State :=
  let mine (r : Ring) : Bool := decide (r.fn = fn)
  let off := tkeys (s.tally.rings.filter fun (e : Nat × Ring) => mine e.2)
  let s := (List.range (droppedReplies fn s.cif.flights)).foldl (fun t _ => t.emit (.discarded fn)) s
  { s with
      aon := if fn = 0 then s.aon.resetBar2 else s.aon
      cif := { s.cif with
        flights := resetFlights fn s.cif.flights
        funcs := tdel s.cif.funcs fn
        dests := tmod s.cif.dests fn fun d => { d with ring := {} } }
      tally := { s.tally with
        rings := s.tally.rings.map fun (e : Nat × Ring) => if mine e.2 then (e.1, {}) else e
        units := s.tally.units.filter fun u => !off.contains u.stream } }.periodDone

/-- A function-level reset. -/
def execFunctionLevelReset (fn : Nat) (s : State) : Res := onNum (decide (fn < 16)) (s.resetFn fn)

/-- PERST_N resets the PCIe group alone: every function, and the link. -/
def execPerstN (s : State) : Res :=
  .next
    (let t := (List.range 16).foldl State.resetFn s
    { t with cif := { t.cif with pcieUp := false } })

/-- The PCIe link comes up: from then on BAR0 is reached, and its READY reads the central steward's. From stage 3 function 0
shows BAR2 (R448). -/
def execPcieLinkUp (s : State) : Res :=
  .next (if 2 ≤ s.aon.stage.toNat then { s with cif := { s.cif with pcieUp := true } } else s)

end Sys2Proof.Machine
end

