-- ==== Sys2Proof/Machine/Stewards.lean ====
section
/-!
DEFINITION. The stewards (R363 to R378): Fliric images and their checks (Table 11-5), the staging buffer, the micro-trap,
the live patch of a region steward, and the commands of group 0x0A.
-/

namespace Sys2Proof.Machine

/-! ### Fliric images (R366, R367) -/

/-- Bytes of an image of `n` microwords (R366). -/
def imageLen (n : Nat) (signed : Bool) : Nat := 32 + 20 * n + 8192 + 48 + if signed then 192 else 0

/-- The header's SIGNED and WORD_COUNT. -/
def imageSigned (bs : List Byte) : Bool := (byteAt bs 7).getLsbD 0

def imageCount (bs : List Byte) : Nat := natAt bs 16 4

/-- Microword record `i`: 160 bits, ECC on top. -/
def imageWord (bs : List Byte) (i : Nat) : BitVec 160 := BitVec.ofNat 160 (natAt bs (32 + 20 * i) 20)

/-- A record whose ECC is right and whose reserved bits are 0. -/
def microwordOk (w : BitVec 160) : Bool :=
  decide (w.extractLsb' 144 16 = Config.wordCode ((w.extractLsb' 0 144).zeroExtend 160)) && decide (w.extractLsb' 86 58 = 0)

/-- Entry `i` of the dispatch table. -/
def imageDispatch (bs : List Byte) (i : Nat) : Nat := natAt bs (32 + 20 * imageCount bs + 2 * i) 2

/-- Where the digest stands, and the key of a signed image. -/
def imageDigestAt (bs : List Byte) : Nat := imageLen (imageCount bs) (imageSigned bs) - 48 - if imageSigned bs then 96 else 0

def imageKey (bs : List Byte) : List Byte := (bs.drop (imageDigestAt bs - 96)).take 96

def imageDigest (bs : List Byte) : BitVec 384 := BitVec.ofNat 384 (netAt bs (imageDigestAt bs) 48)

/-- The refusal cause of Table 11-5 for an image of a kind under a behaviour level; 0 where every check passes. -/
def imageCause (kind : Nat) (level : BitVec 8) (bs : List Byte) : Nat :=
  let n := imageCount bs
  if natAt bs 0 4 ≠ 0x43524C46 ∨ natAt bs 4 2 ≠ 1 then 1
  else if (byteAt bs 6).toNat ≠ kind then 2
  else if n < 1 ∨ 16384 < n ∨ natAt bs 20 4 ≠ imageLen n (imageSigned bs) ∨ natAt bs 20 4 ≠ bs.length then 3
  else if ((List.range n).all fun i => microwordOk (imageWord bs i)) = false ∨
      ((List.range 4096).all fun i => decide (imageDispatch bs i < n)) = false then 4
  else if imageDigest bs ≠ Config.sha384 (bs.take (imageDigestAt bs)) then 5
  else if Config.secureLoad = true ∧ imageSigned bs = false then 6
  else if Config.secureLoad = true ∧ Config.sha384 (imageKey bs) ≠ Config.keyHash then 7
  else if Config.secureLoad = true ∧
      Config.ecdsaOk (imageKey bs) (imageDigest bs) ((bs.drop (imageDigestAt bs + 48)).take 96) = false then 8
  else if byteAt bs 12 ≠ level then 9
  else 0

/-- The image that accepted bytes hold. -/
def imageOf (bs : List Byte) : Image :=
  { kind := (byteAt bs 6).toNat, version := word (natAt bs 8 4), level := byteAt bs 12, taskFmt := byteAt bs 13
    words := (List.range (imageCount bs)).map fun i => imageWord bs i
    dispatch := (List.range 4096).map fun i => BitVec.ofNat 14 (imageDispatch bs i)
    digest := BitVec.ofNat 64 (natAt bs (imageDigestAt bs) 8) }

/-- The version alone of an image's header. -/
def imageVersion (bs : List Byte) : Word := word (natAt bs 8 4)

/-- The slot of the flash that a bit names: A, or B when set. -/
def State.slot (s : State) (b : Bool) : Slot := if b then s.aon.slotB else s.aon.slotA

/-- The 12 bytes of the commit word behind a body (R450): the magic, its length, its CRC-32C. -/
def commitWord (body : List Byte) : List Byte :=
  bytesOf 0x4C4E524A 4 ++ bytesOf body.length 4 ++ bytesOf (crc32c body).toNat 4

/-- The body of a slot's directory: where its two images stand and how long they are (R449). -/
def Slot.directory (x : Slot) : List Byte :=
  bytesOf 0x01000 4 ++ bytesOf x.central.length 4 ++ bytesOf 0x81000 4 ++ bytesOf x.region.length 4 ++ List.replicate 32 0

/-- The directory has a valid commit word, at bytes 48 to 59. -/
def Slot.committed (x : Slot) : Bool := decide ((x.dir.drop 48).take 12 = commitWord (x.dir.take 48))

/-- The directory body is programmed, and the commit word last (R452); the four bytes behind it stay erased. -/
def Slot.commit (x : Slot) : Slot :=
  { x with state := .complete, dir := x.directory ++ commitWord x.directory ++ List.replicate 4 0xFF }

/-- The region image that a slot's directory gives: nothing without a committed directory, or without a flash. -/
def State.slotRegion (s : State) (b : Bool) : List Byte :=
  if s.aon.flashAbsent = false ∧ (s.slot b).committed = true then (s.slot b).region.take (natAt (s.slot b).dir 12 4) else []

def State.slotCentral (s : State) (b : Bool) : List Byte :=
  if s.aon.flashAbsent = false ∧ (s.slot b).committed = true then (s.slot b).central.take (natAt (s.slot b).dir 4 4) else []

/-! ### Commands in hand (R35, R395) -/

/-- Ends the commands in the hands of engine `e` with a status. -/
def State.endInHand (s : State) (e st : Nat) : State :=
  (s.cif.flights.filter fun f => s.inHand e f).foldl (fun t f => t.endCmd f (t.mkReply f.cmd st [] false)) s

/-- A command in flight that is addressed to a unit of die `d`, and has not made its final write (R35). -/
def State.aimedAt (s : State) (d : Nat) (f : Flight) : Bool :=
  let handed : Bool := match f.phase with | .waiting => true | .stored _ => true | .held => true | .running => true | _ => false
  handed && !f.rejected && decide (f.cmd.device = s.parish.device) && decide (targetDie f.cmd = some d) && !s.hasResult f.cmd && !s.inTask f.cmd

/-- Every command in flight to a die that stops is aborted. -/
def State.endAimed (s : State) (d : Nat) : State :=
  (s.cif.flights.filter fun f => s.aimedAt d f).foldl (fun t f => t.endCmd f (t.mkReply f.cmd stAborted [] false)) s

/-! ### The micro-trap (R369, R370, Table 11-3) -/

/-- The opcodes that only read: of those MEM_FAULT makes UNCORRECTED, of the others HW_FAULT (Table 10-5).
(DEDUCED: log entry 109.) -/
def readOpcodes : List Nat :=
  [0x0101, 0x0106, 0x0202, 0x0205, 0x0207, 0x0212, 0x0213, 0x0304, 0x030A, 0x030B, 0x0406, 0x0407, 0x040B, 0x0410, 0x0506,
   0x0507, 0x0508, 0x0604, 0x0607, 0x0609, 0x060A, 0x0701, 0x0803, 0x0805, 0x0807, 0x0901, 0x0904, 0x0A01, 0x0A04, 0x0B02,
   0x0B05, 0x0C01, 0x0C03, 0x0D01, 0x0D05]

/-- The bits of a control-store word that differ from its image's. -/
def Steward.flips (g : Steward) (a : Nat) : Nat := ((List.range 160).filter fun i => (g.store a ^^^ g.intact a).getLsbD i).length

/-- The repair ROM rewrites an uncorrectable word from the active image (Table 11-3). -/
def State.repairWord (s : State) (e a : Nat) : State :=
  let g := s.engine e
  let s := s.setEngine e { g with damaged := tdel g.damaged a, repairs := satAdd 16 g.repairs 1 }
  (s.detectRecover dCsUncorrected e a 0 0 true).raise 0 0x0A04 [word e, word a]

/-- The word that CS_UNCORRECTED is about: the first uncorrectable one that the model holds; a fault of which it holds none may
lie anywhere. (DESIGN CHOICE: log entry 110.) -/
def State.repairStore (s : State) (e : Nat) : State :=
  let g := s.engine e
  match g.damaged.find? fun w => decide (2 ≤ g.flips w.1) with
  | some (a, _) => s.repairWord e a
  | none =>
    let x := s.fresh
    x.2.repairWord e (x.1 % 16384)

/-- A trap is taken: counted, with its entry of the trace. -/
def State.enterTrap (s : State) (e cause : Nat) : State :=
  let s := s.trace e 2 (BitVec.ofNat 12 cause)
  let g := s.engine e
  s.setEngine e { g with traps := g.traps + 1, causes := g.causes.filter (· ≠ cause) }

/-- A control-store word with a pattern XORed into a segment and its check bits (R400). -/
def hitWord (w : BitVec 160) (seg pat chk : Nat) : BitVec 160 :=
  w ^^^ BitVec.ofNat 160 (pat * 2 ^ (64 * seg)) ^^^ BitVec.ofNat 160 (chk * 2 ^ 144)

/-- The pattern of an injection into CS_UNCORRECTED strikes an engine's word. -/
def State.strikeStore (s : State) (j : Injection) (a : Nat) : State :=
  let s := s.putInPlace j
  let g := s.engine j.inst
  s.setEngine j.inst
    { g with damaged := tins g.damaged a (hitWord (g.store a) (j.address.toNat / 2 ^ 16 % 4) j.pattern.toNat j.check.toNat) }

/-- A word is fetched from the control store, with the injection that waits for this: a single-bit error is corrected and written back;
an uncorrectable word is repaired by the ROM, which saves the micro-PC alone and refetches (R364, R370). -/
def State.fetchWord (s : State) (e : Nat) (a : BitVec 14) : State :=
  let s := match s.waiting? dCsUncorrected e with
    | some j => s.strikeStore j a.toNat
    | none => s
  let g := s.engine e
  match g.flips a.toNat with
  | 0 => s
  | 1 => (s.setEngine e { g with damaged := tdel g.damaged a.toNat }).useInjection dCsUncorrected e a.toNat
  | _ =>
    let s := s.enterTrap e 1
    let s := (s.setEngine e { s.engine e with romPc := some a }).repairWord e a.toNat
    let s := s.trace e 3 1
    s.setEngine e { s.engine e with romPc := none }

/-- MEM_FAULT: the command in hand completes with UNCORRECTED or HW_FAULT; without one, a task records the fault and goes on. -/
def State.memFault (s : State) (e : Nat) : State :=
  match s.handFlight e with
  | some f =>
    s.endCmd f (s.mkReply f.cmd (if readOpcodes.contains f.cmd.opcode.toNat then stUncorrected else stHwFault) [] false)
  | none =>
    let g := s.engine e
    s.setEngine e { g with taskFaults := g.taskFaults + 1 }

/-- CS_UNCORRECTED is served by the repair ROM, which saves the micro-PC alone and returns to it (R370). -/
def State.runRepair (s : State) (e : Nat) : State :=
  let s := s.enterTrap e 1
  let s := s.setEngine e { s.engine e with romPc := some (s.engine e).micro.pc }
  let s := (s.repairStore e).trace e 3 1
  s.setEngine e { s.engine e with romPc := none }

/-- The handler of cause 2, 3 or 4 is entered at its address in the control store; the save area keeps the routine's micro-state, also
from an earlier handler (R369, R370). -/
def State.enterHandler (s : State) (e cause : Nat) : State :=
  let s := s.enterTrap e cause
  let g := s.engine e
  let s := s.setEngine e
    { g with saved := some (g.saved.getD g.micro), handler := cause, handlerRun := 0
             micro := { g.micro with pc := BitVec.ofNat 14 cause } }
  if cause = 2 then s.memFault e else s

/-- The highest pending cause that a handler in the control store serves is taken, if any. -/
def State.takeHandler (s : State) (e : Nat) : State :=
  match sortNat ((s.engine e).causes.filter (· ≠ 1)) with
  | [] => s
  | c :: _ => s.enterHandler e c

/-- An engine takes its pending causes at a microword boundary: CS_UNCORRECTED at once, the highest other one where no handler runs
(R369, R370). A microword that is stalled completes first. (DEDUCED: log entry 108.) -/
def State.takeCauses (s : State) (e : Nat) : State :=
  if (s.engine e).stalled then s
  else
    let s := if (s.engine e).causes.contains 1 then s.runRepair e else s
    if (s.engine e).saved.isSome then s else s.takeHandler e

/-- TRAP_RETURN: the highest pending cause is taken before the routine resumes; with none, the saved micro-state is restored, but for a
command that has ended. -/
def State.trapReturn (s : State) (e : Nat) : State :=
  let s := s.trace e 3 (BitVec.ofNat 12 (s.engine e).handler)
  let g := s.engine e
  match sortNat (g.causes.filter (· ≠ 1)) with
  | c :: _ => s.enterHandler e c
  | [] =>
    s.setEngine e
      { g with micro := { g.saved.getD g.micro with inHand := g.micro.inHand }, saved := none, handler := 0, handlerRun := 0 }

/-- A cause is added to those that an engine holds pending. -/
def State.pendTrap (s : State) (e cause : Nat) : State :=
  let g := s.engine e
  if g.causes.contains cause then s else s.setEngine e { g with causes := g.causes ++ [cause] }

/-- A cause is raised at an engine that runs, which takes it at its microword boundary; while its store is loaded or verified, the cause
waits for the handback (R374). -/
def execMicroTrap (engine cause : Nat) (s : State) : Res :=
  onNum (decide (engine < 5) && decide (1 ≤ cause) && decide (cause ≤ 4))
    (match (s.engine engine).state with
      | .running => (s.pendTrap engine cause).takeCauses engine
      | .quiescing => (s.pendTrap engine cause).takeCauses engine
      | .patching => s.pendTrap engine cause
      | _ => s)

/-- The beat of a stored command has come: its steward takes BEAT (Table 11-3), and the command begins at its target (R350), or
after the recovery of its cluster (R384). -/
def execAtBeatBoundary (src : Sender) (q : Nat) (tag : BitVec 12) (s : State) : Res :=
  .next
    (match s.cif.flights.find? fun f => isTag src q tag f && !f.rejected with
      | none => s
      | some f =>
        match f.phase with
        | .stored b =>
          if b.toNat ≤ s.time.beat.toNat ∧ s.fenceWait f.cmd = false then
            let e := cmdEngine f.cmd
            let s := if (s.engine e).state = .running then (s.pendTrap e 4).takeCauses e else s
            let x := s.begin_ f false
            x.1.keepFlights (modFirst (fun g => isTag src q tag g && !g.rejected) (fun _ => x.2) x.1.cif.flights)
          else s
        | _ => s)

/-! ### The staging buffer (R371, R376) -/

/-- The status of a refused image, with its cause and the version. -/
def imageAns (s : State) (st cause : Nat) (v : Word) : State × Option Ans :=
  (s, some { status := st, words := [word cause, v] })

/-- BEGIN. -/
def microcodeLoadBeginAct (c : Cmd) (s : State) : State × Option Ans :=
  let n := fld (wd c.words 1) 0 20
  if fld (wd c.words 0) 0 2 ≠ 0 ∨ n < 32 ∨ 336144 < n then fail s stBadParam
  else if s.stw.patch.isSome then fail s stBusy
  else done { s with stw := { s.stw with staging := .filling, length := n, bytes := [], staged := none } }

def execMicrocodeLoadBegin (c : Cmd) (s : State) : Res := .next (runCmd 0x0A02 c s (microcodeLoadBeginAct c))

/-- The bytes of a DATA call: its words, the padding of the last one left out. -/
def dataBytes (c : Cmd) (room : Nat) : List Byte :=
  let bs := wordsToBytes (c.words.drop 2)
  if room < bs.length ∧ bs.length < room + 4 then bs.take room else bs

/-- DATA. (DEDUCED: log entry 112.) -/
def microcodeLoadDataAct (c : Cmd) (s : State) : State × Option Ans :=
  let got := s.stw.bytes.length
  let bs := dataBytes c (s.stw.length - got)
  if fld (wd c.words 0) 0 2 ≠ 1 ∨ s.stw.staging ≠ .filling ∨ fld (wd c.words 1) 0 20 ≠ got ∨
      s.stw.length < got + bs.length then fail s stBadParam
  else
    done { s with stw := { s.stw with
      bytes := s.stw.bytes ++ bs, staging := if got + bs.length = s.stw.length then .filled else .filling } }

def execMicrocodeLoadData (c : Cmd) (s : State) : Res := .next (runCmd 0x0A02 c s (microcodeLoadDataAct c))

/-- END: a refusal leaves the buffer FILLED, whatever it held (R371). -/
def microcodeLoadEndAct (c : Cmd) (s : State) : State × Option Ans :=
  if fld (wd c.words 0) 0 2 ≠ 2 ∨ wd c.words 1 ≠ 0 then fail s stBadParam
  else if s.stw.staging = .valid then imageAns s stOk 0 ((s.stw.staged.map (·.version)).getD 0)
  else
    let bs := s.stw.bytes
    let k := imageCause 1 s.aon.level bs
    if k ≠ 0 then
      imageAns { s with stw := { s.stw with staging := .filled } } stBadParam k 0
    else imageAns { s with stw := { s.stw with staging := .valid, staged := some (imageOf bs) } } stOk 0 (imageVersion bs)

def execMicrocodeLoadEnd (c : Cmd) (s : State) : Res := .next (runCmd 0x0A02 c s (microcodeLoadEndAct c))

/-- FROM_SLOT: a refusal leaves the buffer EMPTY. (DEDUCED: log entry 111.) -/
def microcodeLoadFromSlotAct (c : Cmd) (s : State) : State × Option Ans :=
  if fld (wd c.words 0) 0 2 ≠ 3 ∨ wd c.words 1 ≠ 0 then fail s stBadParam
  else
    let bs := s.slotRegion (bit (wd c.words 0) 2)
    let k := imageCause 1 s.aon.level bs
    if k ≠ 0 then imageAns { s with stw := { s.stw with staging := .empty, length := 0, bytes := [], staged := none } } stBadParam k 0
    else
      imageAns { s with stw := { s.stw with
        staging := .valid, length := bs.length, bytes := bs, staged := some (imageOf bs) } } stOk 0 (imageVersion bs)

def execMicrocodeLoadFromSlot (c : Cmd) (s : State) : Res := .next (runCmd 0x0A02 c s (microcodeLoadFromSlotAct c))

/-! ### Live patching (R372 to R374) -/

/-- STEWARD_PATCH: its reply comes at the handback. -/
def stewardPatchAct (c : Cmd) (s : State) : State × Option Ans :=
  let e := c.unit.toNat
  let g := s.engine e
  if e = 0 then fail s stBadParam
  else
    match s.stw.staged with
    | none => fail s stNotFound
    | some i =>
      if s.stw.staging ≠ .valid then fail s stNotFound
      else if wd c.words 1 ≠ i.version ∨ i.taskFmt ≠ g.image.taskFmt then fail s stBadParam
      else if s.stw.patch.isSome = true ∨ s.dieStopped (regionDie (e - 1)) = true then fail s stBusy
      else
        let p : Patch := { region := e - 1, startNs := s.time.runNs, oldImage := g.image, image := i, cmd := c }
        let s := { s with stw := { s.stw with patch := some p } }
        let s := (s.setEngine e { g with state := .quiescing }).pendTrap e 3
        (s.raise 0 0x0A01 [word e, g.image.version], none)

def execStewardPatch (c : Cmd) (s : State) : Res := .next (runCmd 0x0A03 c s (stewardPatchAct c))

def State.setPatch (s : State) (p : Option Patch) : State := { s with stw := { s.stw with patch := p } }

/-- What the control store of an engine holds; the version values of R368 stay until the handback. -/
def State.loadStore (s : State) (e : Nat) (i : Image) : State :=
  let g := s.engine e
  s.setEngine e
    { g with
        state := .patching, damaged := [], micro := {}, tasks := [], lastYield := none
        image := { g.image with words := i.words, dispatch := i.dispatch } }

/-- The region steward has no command in hand, every internal task of it is suspended at a YIELD, and its handlers have returned.
(DEDUCED: log entry 115.) -/
def State.quiet (s : State) (e : Nat) : Bool :=
  let g := s.engine e
  !(s.cif.flights.any fun f => s.inHand e f) && g.micro.task.isNone && g.saved.isNone && g.causes.isEmpty && !g.stalled

/-- The quiesce ends once the region steward is quiet: its tasks' states are saved with the central steward, and the store is
loaded. -/
def execPatchLoad (region : Nat) (s : State) : Res :=
  onNum (decide (region < 4))
    (match s.stw.patch with
      | none => s
      | some p =>
        let e := 1 + region
        if p.region ≠ region ∨ p.phase ≠ 0 ∨ s.quiet e = false then s
        else (s.loadStore e p.image).setPatch (some { p with phase := 1, tasks := (s.engine e).tasks }))

/-- The store is read back and compared with the staged image: no word of it differs, by what the model holds of the store and
by what the read-back met. -/
def execPatchVerify (region : Nat) (same : Bool) (s : State) : Res :=
  onNum (decide (region < 4))
    (match s.stw.patch with
      | none => s
      | some p => if p.region ≠ region ∨ p.phase ≠ 1 then s else 
        s.setPatch (some { p with phase := if same = true ∧ (s.engine (1 + region)).damaged = [] then 2 else 3 }))

/-- The handback with an image: the engine runs from its reset entry with its tasks' states restored, and takes the causes that
waited for it. What has struck the store since the verify stays. -/
def State.handback (s : State) (e : Nat) (i : Image) (tasks : List Micro) : State :=
  ((s.setEngine e { s.engine e with state := .running, image := i, tasks := tasks }).trace e 5 0).setPatch none
    |>.takeCauses e

/-- The handback of a patch that verified. -/
def execPatchDone (region : Nat) (s : State) : Res :=
  onNum (decide (region < 4))
    (match s.stw.patch with
      | none => s
      | some p =>
        if p.region ≠ region ∨ p.phase ≠ 2 then s
        else
          let e := 1 + region
          let s := s.handback e p.image p.tasks
          let g := s.engine e
          let s := s.setEngine e { g with patches := satAdd 16 g.patches 1 }
          let s := s.raise 0 0x0A02 [word e, p.oldImage.version, p.image.version, word (s.time.runNs - p.startNs)]
          (s.answer p.cmd {}).release e)

/-- The previous image is loaded and verified again, and control handed back with the old version: with the tasks that the central steward
keeps, or, where nothing has been loaded yet, with the engine as it stands. The event's cause has no stated values. -/
def State.patchFail (s : State) (p : Patch) (status : Nat) : State :=
  let e := 1 + p.region
  let x := (if p.phase = 0 then s.handback e p.oldImage (s.engine e).tasks
    else (s.loadStore e p.oldImage).handback e p.oldImage p.tasks).fresh
  ((x.2.raise 0 0x0A03 [word e, word x.1]).answer p.cmd { status := status }).release e

/-- The handback of a patch whose verify found a difference. -/
def execPatchFailed (region : Nat) (s : State) : Res :=
  onNum (decide (region < 4))
    (match s.stw.patch with
      | none => s
      | some p => if p.region ≠ region ∨ p.phase ≠ 3 then s else s.patchFail p stHwFault)

/-! ### Status and trace -/

def StewState.code : StewState → Nat
  | .reset => 0 | .loading => 1 | .running => 2 | .quiescing => 3 | .patching => 4 | .faulted => 5

def StageState.code : StageState → Nat
  | .empty => 0 | .filling => 1 | .filled => 2 | .valid => 3

/-- STEWARD_STATUS (Table 11-8). -/
def stewardStatusAct (c : Cmd) (s : State) : State × Option Ans :=
  let e := c.unit.toNat
  let g := s.engine e
  let hand := g.micro.inHand.getD (.mgmt, 0, 0)
  done s
    ([pack [(0, g.state.code), (3, if e = 0 then s.stw.staging.code else 0)], g.image.version,
      pack [(0, g.image.level.toNat), (8, g.image.taskFmt.toNat)],
      pack [(0, g.micro.pc.toNat), (14, hand.2.1.toNat), (26, hand.2.2.toNat), (30, b2n g.micro.inHand.isSome)],
      word (if e = 0 then s.heldCount else 0), g.traps, pack [(0, g.repairs.toNat), (16, g.patches.toNat)]] ++
      wordsOf g.image.digest.toNat 2)

def execStewardStatus (c : Cmd) (s : State) : Res := .next (runCmd 0x0A01 c s (stewardStatusAct c))

/-- The two words of a trace entry (Table 11-10). -/
def TraceEnt.words (t : TraceEnt) : List Word := [pack [(0, t.pc.toNat), (14, t.kind.toNat), (17, t.tag.toNat)], t.time]

/-- The entry `k` back from the newest in the circular buffer; a place never written holds zeros. -/
def traceBack (l : List TraceEnt) (k : Nat) : List Word :=
  let i := k % 1024
  if i < l.length then
    match l[l.length - 1 - i]? with
    | some t => t.words
    | none => [0, 0]
  else [0, 0]

/-- STEWARD_TRACE_READ (R377). (DEDUCED: log entry 113.) -/
def stewardTraceReadAct (c : Cmd) (s : State) : State × Option Ans :=
  let first := fld (wd c.words 0) 0 10
  let n := fld (wd c.words 0) 10 9
  let e := c.unit.toNat
  if n = 0 ∨ 256 < n then fail s stBadParam
  else done s ((List.range n).flatMap fun i => traceBack (s.engine e).trace (first + n - 1 - i))

def execStewardTraceRead (c : Cmd) (s : State) : Res := .next (runCmd 0x0A04 c s (stewardTraceReadAct c))

end Sys2Proof.Machine
end

