-- ==== Sys2Proof/Machine/Journal.lean ====
section
/-!
DEFINITION. The journal and its image slots (R447, R449 to R454), the counters of seconds (R284), and the device reset (R443).
-/

namespace Sys2Proof.Machine

/-! ### Records (R450, R451, Table 14-7) -/

def recSector : Nat := 0x0000
def recPowerOn : Nat := 0x0001
def recSlotSelect : Nat := 0x0002
def recResetCause : Nat := 0x0003
def recStart : Nat := 0x0004
def recLevel : Nat := 0x0005

/-- The body of a record: its 16-byte header, then its payload. -/
def JRec.body (r : JRec) : List Byte :=
  bytesOf r.rtype.toNat 2 ++ bytesOf (16 + r.payload.length) 2 ++ bytesOf r.seq.toNat 4 ++ bytesOf r.counter.toNat 5 ++
    [0, 0, 0] ++ r.payload

/-- The bytes that a record takes of its sector: whole pages, the commit word included. -/
def recordBytes (payload : Nat) : Nat := roundUp (16 + payload + 12) 256

/-- The record's commit word is there and matches; one without it is ignored (R450). -/
def JRec.committed (r : JRec) : Bool := decide (r.commit = commitWord r.body)

/-- The sectors with a committed SECTOR record, oldest first; any other sector is unopened (R451). -/
def Aon.openSectors (a : Aon) : List Nat :=
  (a.journal.filter fun r => decide (r.rtype.toNat = recSector) && r.committed).map (·.sector)

/-- The sector that records are written to. -/
def Aon.sector? (a : Aon) : Option Nat := a.openSectors.getLast?

/-- The newest committed record of a type among records. -/
def newestRec (l : List JRec) (type : Nat) : Option JRec :=
  (l.filter fun r => decide (r.rtype.toNat = type) && r.committed).getLast?

/-- The newest committed record of a type in the two newest sectors, which stage 0 scans (R451). -/
def Aon.newest (a : Aon) (type : Nat) : Option JRec :=
  let two := a.openSectors.drop (a.openSectors.length - 2)
  newestRec (a.journal.filter fun r => two.contains r.sector) type

/-- The highest RECORD_SEQ in any header, committed or not. -/
def Aon.newestSeq (a : Aon) : Nat := (a.journal.map fun r => r.seq.toNat).foldl max 0

/-- The next record, of a sector, its commit word not programmed yet. -/
def Aon.record (a : Aon) (sector type : Nat) (payload : List Byte) : JRec :=
  { rtype := BitVec.ofNat 16 type, seq := BitVec.ofNat 32 (a.newestSeq + 1), counter := a.powerOn, payload := payload, sector := sector }

/-- The commit word is programmed last. -/
def JRec.commitRec (r : JRec) : JRec := { r with commit := commitWord r.body }

/-- Programs a record's body into the open sector, whose pages it takes from then on. -/
def Aon.programBody (a : Aon) (type : Nat) (payload : List Byte) : Aon :=
  { a with
      journal := a.journal ++ [a.record (a.sector?.getD 0) type payload], logUsed := a.logUsed + recordBytes payload.length
      writing := false }

/-- The newest record is committed. -/
def Aon.commitLast (a : Aon) : Aon :=
  match a.journal.getLast? with
  | some r => { a with journal := a.journal.dropLast ++ [r.commitRec] }
  | none => a

/-- Programs one record into the open sector. -/
def Aon.program (a : Aon) (type : Nat) (payload : List Byte) : Aon := (a.programBody type payload).commitLast

/-- A sector is erased: what it held is gone. -/
def Aon.erase (a : Aon) (n : Nat) : Aon := { a with journal := a.journal.filter fun r => decide (r.sector ≠ n) }

/-- Without two erased sectors left, the sector with the oldest SECTOR record is erased. -/
def Aon.reclaim (a : Aon) : Aon :=
  if Config.logSectors < a.openSectors.length + 2 then
    match a.openSectors with
    | n :: _ :: _ => a.erase n
    | _ => a
  else a

/-- The sector that is opened next. -/
def Aon.nextSector (a : Aon) : Nat :=
  match a.sector? with
  | some n => (n + 1) % Config.logSectors
  | none => 0

/-- The body of the SECTOR record of the next sector, which is erased before. -/
def Aon.beginSector (a : Aon) : Aon :=
  let n := a.nextSector
  let b := a.erase n
  { b with journal := b.journal ++ [a.record n recSector (bytesOf n 4)], writing := false }

/-- Opens the next sector: a SECTOR record, and copies of the newest record of each kept type. (DEDUCED: log entry 117.) -/
def Aon.openSector (a : Aon) : Aon :=
  let kept := [recSlotSelect, recLevel, recPowerOn].filterMap fun t => a.newest t
  let a : Aon := { a.beginSector.commitLast with logUsed := recordBytes 4 }
  (kept.foldl (fun b r => b.program r.rtype.toNat r.payload) a).reclaim

/-- The open sector has no room for a record. -/
def Aon.full (a : Aon) (payload : List Byte) : Bool :=
  a.sector?.isNone || decide (65536 < a.logUsed + recordBytes payload.length)

/-- Appends a record, in a new sector where the open one has no room; without a flash nothing is written.
(DESIGN CHOICE: log entry 116.) -/
def Aon.append (a : Aon) (type : Nat) (payload : List Byte) : Aon :=
  if a.flashAbsent then a else (if a.full payload then a.openSector else a).program type payload

/-- A record of the always-on group's own: its flash write goes on for a while. -/
def Aon.appendOwn (a : Aon) (type : Nat) (payload : List Byte) : Aon := { a.append type payload with writing := !a.flashAbsent }

/-- Power is lost before a record's commit word is programmed: its body stays without one, or, `early`, that of the SECTOR record before
it (R450, R451). -/
def Aon.cutAppend (a : Aon) (type : Nat) (payload : List Byte) (early : Bool) : Aon :=
  if a.flashAbsent then a
  else if a.full payload then if early then a.beginSector else a.openSector.programBody type payload
  else a.programBody type payload

/-- The newest record loses its commit word: power was lost before it was programmed. -/
def Aon.cutLast (a : Aon) : Aon :=
  match a.journal.getLast? with
  | some r => { a with journal := a.journal.dropLast ++ [{ r with commit := [] }] }
  | none => a

def State.append (s : State) (type : Nat) (payload : List Byte) : State := { s with aon := s.aon.append type payload }

/-- The behaviour level that the journal names (R463). -/
def Aon.journalLevel (a : Aon) : BitVec 8 :=
  if a.flashAbsent then 1
  else
    match a.newest recLevel with
    | some r => byteAt r.payload 0
    | none => 1

/-- The slot that the newest SLOT_SELECT record names: A where there is none. -/
def Aon.selected (a : Aon) : Bool :=
  match a.newest recSlotSelect with
  | some r => decide (a.flashAbsent = false ∧ byteAt r.payload 0 ≠ 0)
  | none => false

/-- The device runs from this slot. (DEDUCED: log entry 119.) -/
def Aon.runs (a : Aon) (b : Bool) : Bool := !a.hostBoot && decide (a.running = b)

/-! ### The seconds (R284) -/

/-- Another second passes while VAUX is present. -/
def execPowerOnSecond (s : State) : Res :=
  .next
    (if s.aon.vaux then
      { s with aon := { s.aon with
        powerOn := satAdd 40 s.aon.powerOn 1, sinceVaux := satAdd 32 s.aon.sinceVaux 1, writing := false } }
    else s)

/-- The count has reached a multiple of 3,600 s and is saved. -/
def execPowerOnSave (s : State) : Res :=
  .next
    (if s.aon.vaux = true ∧ s.aon.powerOn.toNat % 3600 = 0 then { s with aon := s.aon.appendOwn recPowerOn (bytesOf s.aon.powerOn.toNat 5) } else s)

/-! ### The device reset (R442, R443) -/

/-- The eight words of a log record (Table 12-10). -/
def LogRec.words (r : LogRec) : List Word :=
  [r.seq, pack [(0, r.det), (8, r.inst), (28, b2n r.uncorr), (29, b2n r.injected)], r.address,
    pack [(0, r.action), (8, r.discarded)]] ++
    wordsOf r.beat.toNat 1 ++ [word (r.beat.toNat / 2 ^ 32 + r.gen.toNat * 65536)] ++ wordsOf r.ns 2

/-- The conditions that hold the device with one more; those that hold it already stay. -/
def Aon.holdWith (a : Aon) (h : Option (BitVec 3)) : List (BitVec 3) :=
  match h with
  | some n => if a.hold.contains n then a.hold else a.hold ++ [n]
  | none => a.hold

/-- A device reset: the RESET_CAUSE record is written, every group but AON returns to reset, and start-up runs from stage 2,
unless the cause still holds the device. (DEDUCED: log entry 37.) -/
def State.deviceReset (s : State) (cause : Nat) (log : Option LogRec) (hold : Option (BitVec 3)) : State :=
  let bytes := BitVec.ofNat 8 cause :: (match log with | some r => wordsToBytes r.words | none => [])
  let a := s.aon.appendOwn recResetCause bytes
  let a : Aon :=
    { a with
        stage := 2, lastReset := BitVec.ofNat 3 cause, hold := a.holdWith hold, waitHost := false, fallback := false, tried := []
        failCause := 0, hostBoot := false, bootState := 0, bootCause := 0, bootRegion := false, bootFault := 0, bar2 := []
        level := a.journalLevel }
  { State.reset with
      pending := s.pending, free := s.free, out := s.out, nextPkt := s.nextPkt, aon := a
      -- the region sequence number is never reused within a power-on period (R30)
      regions := (s.regions.map fun (e : Nat × Region) => (e.1, ({ seq := e.2.seq } : Region))).filter
        fun (e : Nat × Region) => decide (e.2 ≠ {})
      cif := { State.reset.cif with ignoredWrites := s.cif.ignoredWrites } }

/-- The main world is out of reset or on its way: a device reset has something to reset. -/
def State.started (s : State) : Bool := s.aon.vaux && decide (2 ≤ s.aon.stage.toNat)

/-- RESET_N has been low for 25 cycles of OCLK; the device stays in reset until it is high. (DEDUCED: log entry 121.) -/
def execResetN (s : State) : Res := .next (if s.started then s.deviceReset 1 none (some 1) else s)

/-- Everything that held the device in reset has cleared. -/
def execResetHoldEnd (s : State) : Res := .next { s with aon := { s.aon with hold := [] } }

/-- A command that restarts the device, and has succeeded, waits for its reply to be written. -/
def State.restartReply (s : State) : Bool :=
  s.cif.flights.any fun f =>
    (decide (f.cmd.opcode = 0x0D04) || decide (f.cmd.opcode = 0x0102)) && !f.rejected && !f.discard &&
      ((match f.reply with | some r => decide (r.status = 0) | none => false) ||
        s.cif.results.any fun r =>
          decide (r.src = f.cmd.src) && decide (r.tag = f.cmd.tag) && decide (r.queue = f.cmd.queue) && decide (r.status = 0))

/-- 10 ms have passed since the reply of a command with RESTART, or of a COMMIT (R452, R464). -/
def execImageRestartTimer (s : State) : Res :=
  .next (if s.pwr.restart = true ∧ s.restartReply = false then s.deviceReset 5 none none else s)

/-! ### Group 0x0D -/

/-- The words of a record as JOURNAL_READ returns it. -/
def JRec.replyWords (r : JRec) : List Word :=
  let b := r.body
  bytesToWords b (ceilDiv b.length 4)

/-- LOG_FREE_KIB: what is free in erased sectors and in the open one. -/
def Aon.logFree (a : Aon) : Nat :=
  (Config.logSectors - (a.journal.map (·.sector)).eraseDups.length) * 64 +
    (if a.sector?.isNone then 0 else (65536 - a.logUsed) / 1024)

/-- JOURNAL_READ (Table 14-12). -/
def journalReadAct (c : Cmd) (s : State) : State × Option Ans :=
  let a := s.aon
  let v := (wd c.words 1).toNat
  let give (r : Option JRec) : State × Option Ans :=
    match r with
    | some r => if a.flashAbsent then fail s stNotFound else done s r.replyWords
    | none => fail s stNotFound
  match fld (wd c.words 0) 0 2 with
  | 0 =>
    done s
      [pack [(0, a.stage.toNat), (4, a.bootFault.toNat), (8, b2n a.running), (9, b2n a.selected), (10, b2n a.flashAbsent),
        (11, a.lastReset.toNat)], word a.newestSeq, word a.logFree]
  | 1 => give (a.journal.find? fun r => decide (v ≤ r.seq.toNat) && r.committed)
  | 2 => give (newestRec a.journal v)
  | _ => fail s stBadParam

def execJournalRead (c : Cmd) (s : State) : Res := .next (runCmd 0x0D01 c s (journalReadAct c))

/-- The record that a JOURNAL_APPEND of a right form writes. -/
def userRecord (c : Cmd) : Option (Nat × List Byte) :=
  let w := wd c.words 0
  let n := fld w 8 11
  if n < 1 ∨ 1024 < n ∨ 4 * (c.words.length - 1) < n then none
  else some (0x0100 + fld w 0 8, (wordsToBytes (c.words.drop 1)).take n)

/-- JOURNAL_APPEND: a USER record; without a flash the unit cannot execute it. (DEDUCED: log entry 118.) -/
def journalAppendAct (c : Cmd) (s : State) : State × Option Ans :=
  match userRecord c with
  | none => fail s stBadParam
  | some (type, bytes) =>
    if s.aon.flashAbsent then fail s stHwFault
    else
      let t := s.append type bytes
      done t [word t.aon.newestSeq]

def execJournalAppend (c : Cmd) (s : State) : Res := .next (runCmd 0x0D02 c s (journalAppendAct c))

def State.setSlot (s : State) (b : Bool) (v : Slot) : State :=
  { s with aon := if b then { s.aon with slotB := v } else { s.aon with slotA := v } }

/-- The image's place in a slot: from its offset in the directory up to the region image, or up to the slot's end (R449). -/
def slotRoom (region : Bool) : Nat := if region then 0x7F000 else 0x80000

/-- What IMAGE_WRITE refuses in every form: another OP, the running slot, a slot that is being erased, no flash. -/
def imageWrite (op : Nat) (c : Cmd) (s : State) (f : Bool → Slot → State × Option Ans) : State × Option Ans :=
  let w := wd c.words 0
  let b := bit w 2
  if fld w 0 2 ≠ op then fail s stBadParam
  else if s.aon.flashAbsent then fail s stHwFault
  else if s.aon.runs b = true ∨ (s.slot b).state = .erasing then fail s stBusy
  else f b (s.slot b)

/-- BEGIN: it completes when the erase starts. (DEDUCED: log entry 120.) -/
def imageWriteBeginAct (c : Cmd) (s : State) : State × Option Ans :=
  imageWrite 0 c s fun b _ =>
    if wd c.words 1 ≠ 0 then fail s stBadParam
    else if s.aon.openSlot.isSome then fail s stBusy
    else
      let t := s.setSlot b { state := .erasing }
      done { t with aon := { t.aon with openSlot := some b } }

def execImageWriteBegin (c : Cmd) (s : State) : Res := .next (runCmd 0x0D03 c s (imageWriteBeginAct c))

/-- DATA: its bytes follow those received for the image. -/
def imageWriteDataAct (c : Cmd) (s : State) : State × Option Ans :=
  imageWrite 1 c s fun b x =>
    let region := bit (wd c.words 0) 3
    let got := if region then x.region else x.central
    let bs := wordsToBytes (c.words.drop 2)
    if s.aon.openSlot ≠ some b ∨ fld (wd c.words 1) 0 20 ≠ got.length ∨ slotRoom region < got.length + bs.length then
      fail s stBadParam
    else
      let y : Slot := { x with state := .writing }
      done (s.setSlot b (if region then { y with region := got ++ bs } else { y with central := got ++ bs }))

def execImageWriteData (c : Cmd) (s : State) : Res := .next (runCmd 0x0D03 c s (imageWriteDataAct c))

/-- FINISH: both images are checked, against the armed level where one is armed (R463); the directory is committed last. -/
def imageWriteFinishAct (c : Cmd) (s : State) : State × Option Ans :=
  imageWrite 2 c s fun b x =>
    if s.aon.openSlot ≠ some b ∨ wd c.words 1 ≠ 0 then fail s stBadParam
    else
      let level := s.aon.armed.getD s.aon.level
      let k := imageCause 0 level x.central
      let r := imageCause 1 level x.region
      let t := { s with aon := { s.aon with openSlot := none } }
      if k ≠ 0 then (t.setSlot b { x with state := .invalid }, some { status := stBadParam, words := [pack [(0, k)]] })
      else if r ≠ 0 then
        (t.setSlot b { x with state := .invalid }, some { status := stBadParam, words := [pack [(0, r), (4, 1)]] })
      else done (t.setSlot b x.commit)

def execImageWriteFinish (c : Cmd) (s : State) : Res := .next (runCmd 0x0D03 c s (imageWriteFinishAct c))

/-- The erase of a slot ends. -/
def execSlotEraseDone (slot : Nat) (s : State) : Res :=
  onNum (decide (slot < 2))
    (let b := decide (slot = 1)
    if (s.slot b).state = .erasing then (s.setSlot b {}).raise 0 0x0D01 [word slot] else s)

/-- The payload of a SLOT_SELECT record. -/
def State.selectPayload (s : State) (b : Bool) : List Byte :=
  BitVec.ofNat 8 (b2n b) ::
    (bytesOf (imageVersion (s.slot b).central).toNat 4 ++ bytesOf (imageVersion (s.slot b).region).toNat 4)

/-- IMAGE_SELECT (R452). -/
def imageSelectAct (c : Cmd) (s : State) : State × Option Ans :=
  let b := bit (wd c.words 0) 0
  if s.aon.flashAbsent = true ∨ (s.slot b).state ≠ .complete then fail s stBadParam
  else
    let t := s.append recSlotSelect (s.selectPayload b)
    done { t with pwr := { t.pwr with restart := t.pwr.restart || bit (wd c.words 0) 1 } }

def execImageSelect (c : Cmd) (s : State) : Res := .next (runCmd 0x0D04 c s (imageSelectAct c))

def SlotState.code : SlotState → Nat
  | .empty => 0 | .erasing => 1 | .writing => 2 | .complete => 3 | .invalid => 4

/-- The versions and the digest prefix of a slot that is COMPLETE; 0 otherwise. -/
def Slot.versions (x : Slot) : List Word :=
  if x.state = .complete then [imageVersion x.central, imageVersion x.region] else [0, 0]

def Slot.digest (x : Slot) : List Word := if x.state = .complete then wordsOf (natAt x.central (imageDigestAt x.central) 8) 2 else [0, 0]

/-- IMAGE_STATUS (Table 14-13). -/
def imageStatusAct (s : State) : State × Option Ans :=
  let a := s.aon
  done s
    ([pack [(0, a.slotA.state.code), (3, a.slotB.state.code), (6, b2n a.running), (7, b2n a.selected)]] ++ a.slotA.versions ++
      a.slotB.versions ++ a.slotA.digest ++ a.slotB.digest)

def execImageStatus (c : Cmd) (s : State) : Res := .next (runCmd 0x0D05 c s imageStatusAct)

/-! ### Identity and behaviour levels (R461 to R464) -/

/-- IDCODE: the stepping's sequence number, 1 for A1, above PART, the manufacturer code and a 1 (R462).
(DESIGN CHOICE: log entry 158.) -/
def idcode : Word := pack [(0, 1), (1, 0x2B5), (12, 0x1024), (28, if Config.stepping = 0x11 then 1 else Config.steppingSeq.toNat)]

/-- IDENTIFY (Table 15-6). -/
def identifyAct (s : State) : State × Option Ans :=
  let up := s.pwr.ready
  let w1 :=
    pack [(0, Config.stepping.toNat), (8, s.aon.level.toNat), (16, Config.maxLevel.toNat), (24, b2n Config.secureLoad),
      (25, b2n up), (26, b2n s.aon.armed.isSome)]
  done s
    ([pack [(0, 0x1024), (16, b2n Config.ordering)], w1] ++ wordsOf Config.deviceUid.toNat 2 ++
      ((List.range 5).map fun e => if up then (s.engine e).image.version else 0) ++
      bytesToWords (netBytes Config.keyHash.toNat 48) 12 ++ [idcode])

def execIdentify (c : Cmd) (s : State) : Res := .next (runCmd 0x0101 c s identifyAct)

/-- BEHAVIOUR_SELECT in the OP of its row. -/
def behaviour (op : Nat) (c : Cmd) (s : State) (f : Nat → State × Option Ans) : State × Option Ans :=
  let l := fld (wd c.words 0) 2 8
  if fld (wd c.words 0) 0 2 ≠ op ∨ (op ≠ 0 ∧ l ≠ 0) then fail s stBadParam else f l

def behaviourArmAct (c : Cmd) (s : State) : State × Option Ans :=
  behaviour 0 c s fun l =>
    if l = 0 ∨ Config.maxLevel.toNat < l then fail s stBadParam
    else if s.aon.openSlot.isSome = true ∨ s.aon.flashAbsent = true then fail s stBusy
    else done { s with aon := { s.aon with armed := some (BitVec.ofNat 8 l) } }

def execBehaviourArm (c : Cmd) (s : State) : Res := .next (runCmd 0x0102 c s (behaviourArmAct c))

/-- The records of a COMMIT that has what it requires: the slot that does not run holds images of the armed level. -/
def State.commitRecords (s : State) : Option (List (Nat × List Byte)) :=
  let b := !s.aon.running
  let x := s.slot b
  match s.aon.armed with
  | none => none
  | some l =>
    if s.aon.flashAbsent = true ∨ x.state ≠ .complete ∨ byteAt x.central 12 ≠ l ∨ byteAt x.region 12 ≠ l then none
    else some [(recLevel, [l, s.aon.level]), (recSlotSelect, s.selectPayload b)]

/-- COMMIT: the level, then the slot. -/
def behaviourCommitAct (c : Cmd) (s : State) : State × Option Ans :=
  behaviour 1 c s fun _ =>
    match s.commitRecords with
    | none => fail s stNotFound
    | some l =>
      let t := l.foldl (fun u e => u.append e.1 e.2) s
      done { t with aon := { t.aon with armed := none }, pwr := { t.pwr with restart := true } }

def execBehaviourCommit (c : Cmd) (s : State) : Res := .next (runCmd 0x0102 c s (behaviourCommitAct c))

def behaviourDisarmAct (c : Cmd) (s : State) : State × Option Ans :=
  behaviour 2 c s fun _ => done { s with aon := { s.aon with armed := none } }

def execBehaviourDisarm (c : Cmd) (s : State) : Res := .next (runCmd 0x0102 c s (behaviourDisarmAct c))

/-! ### Power lost during a write (R450, R452, R464) -/

/-- The records that a command in its steward's hands writes, if it succeeds. -/
def State.writes (s : State) (c : Cmd) : List (Nat × List Byte) :=
  if c.opcode = 0x0D02 then (userRecord c).toList
  else if c.opcode = 0x0D04 then
    let b := bit (wd c.words 0) 0
    if (s.slot b).state = .complete then [(recSlotSelect, s.selectPayload b)] else []
  else if c.opcode = 0x0102 ∧ fld (wd c.words 0) 0 2 = 1 then s.commitRecords.getD []
  else []

/-- What the flash's log holds when power is lost: the writes that were going on stop where a free value says, before a record's commit word
or between two records. -/
def State.cutWrites (s : State) : Aon :=
  let f := s.fresh
  match s.cif.flights.find? fun f => decide (f.phase = .running) && !f.rejected && !s.hasResult f.cmd && !(s.writes f.cmd).isEmpty with
  | some g =>
    let l := s.writes g.cmd
    let n := f.1 / 4 % (l.length + 1)
    let a := (l.take n).foldl (fun (u : Aon) e => u.append e.1 e.2) s.aon
    if f.1.testBit 0 then
      match l[n]? with
      | some e => a.cutAppend e.1 e.2 (f.1.testBit 1)
      | none => a
    else a
  | none => if s.aon.writing = true ∧ f.1.testBit 0 = true then s.aon.cutLast else s.aon

end Sys2Proof.Machine
end

