-- ==== Sys2Proof/Machine/Lanes.lean ====
section
/-!
DEFINITION. Chapter 02: the lane commands and the events of bring-up, equalisation, the figure of merit and PRBS.
-/

namespace Sys2Proof.Machine

/-- The lane that word 0 names. -/
def laneOf (c : Cmd) : Nat := fld (wd c.words 0) 0 10

/-! ### LANE_CONFIG -/

/-- The fields of Table 2-5 out of words 1 and 2. -/
def laneFields (w1 w2 : Word) (l : Lane) : Lane :=
  { l with
      anEnable := bit w1 0, trainEnable := bit w1 1, fallbackEnable := bit w1 2, rxPolAuto := bit w1 3
      rxPolForce := bit w1 4, txPolInvert := bit w1 5, cdrBw := BitVec.ofNat 2 (fld w1 6 2)
      forcedRate := BitVec.ofNat 3 (fld w1 8 3), rateEnable := BitVec.ofNat 5 (fld w1 16 5)
      fomWarn := BitVec.ofNat 16 (fld w2 0 16), fomHyst := BitVec.ofNat 16 (fld w2 16 16) }

/-- A write of a field marked "restarts". -/
def laneRestarts (a b : Lane) : Bool :=
  decide (a.anEnable ≠ b.anEnable ∨ a.trainEnable ≠ b.trainEnable ∨ a.rxPolAuto ≠ b.rxPolAuto ∨
    a.rxPolForce ≠ b.rxPolForce ∨ a.txPolInvert ≠ b.txPolInvert ∨ a.cdrBw ≠ b.cdrBw ∨
    a.forcedRate ≠ b.forcedRate ∨ a.rateEnable ≠ b.rateEnable)

/-- LANE_CONFIG (R63): on another lane than the port's lowest the port-wide fields must be written as 0 and keep
their values. -/
def laneConfigAct (c : Cmd) (s : State) : State × Option Ans :=
  let l := laneOf c
  let w1 := wd c.words 1
  let w2 := wd c.words 2
  let old := s.lane l
  let other : Bool := match s.lanePort? l with | some p => decide (p ≠ l) | none => false
  let forced := fld w1 8 3
  let width := match s.port? l with | some v => v.width.toNat | none => 1
  let new0 := laneFields w1 w2 old
  let new : Lane :=
    if other then
      { new0 with
          anEnable := old.anEnable, trainEnable := old.trainEnable, fallbackEnable := old.fallbackEnable
          forcedRate := old.forcedRate, rateEnable := old.rateEnable }
    else new0
  if other ∧ (bit w1 0 ∨ bit w1 1 ∨ bit w1 2 ∨ forced ≠ 0 ∨ fld w1 16 5 ≠ 0) then fail s stBadParam
  else if 5 ≤ forced ∨ (other = false ∧ bit w1 0 ∧ fld w1 16 5 = 0) ∨ 8000 < fld w2 16 16 then fail s stBadParam
  else if other = false ∧ bit w1 0 = false ∧ s.hasPort l ∧ comboOk width forced = false then fail s stBadParam
  else
    -- every write writes the thresholds, which restarts both window counts (R58)
    let new := { new with lowWindows := 0, okWindows := 0 }
    let s := s.setLane l new
    let s := if s.hasPort l then s.modPort l fun v => { v with withdrawn := 0 } else s
    match s.lanePort? l with
    | some p => done (if laneRestarts old new then s.restartPort p else s)
    | none => done s

def execLaneConfig (c : Cmd) (s : State) : Res := .next (runCmd 0x0201 c s (laneConfigAct c))

/-- The receive inversion in use: forced, or detected. -/
def Lane.inverted (l : Lane) : Bool := if l.rxPolAuto then l.rxPolInv else l.rxPolForce

/-- The rate code that a lane under PRBS runs at: FORCED_RATE of its port's lowest lane, or its own where it belongs to no port.
(DESIGN CHOICE: log entry 167.) -/
def State.testRate (s : State) (l : Nat) : Nat :=
  (s.lane ((s.lanePort? l).getD l)).forcedRate.toNat

/-- The rate code in use on a lane (Table 2-6): in WAIT_SIGNAL and NEGOTIATE the forced rate, or 0 while Clause 73 pages are sent. -/
def State.rateInUse (s : State) (l : Nat) : Nat :=
  let p := (s.lanePort? l).getD l
  match s.laneState l with
  | .disabled => 0
  | .test => s.testRate l
  | .waitSignal => if (s.lane p).anEnable then 0 else (s.lane p).forcedRate.toNat
  | .negotiate => if (s.lane p).anEnable then 0 else (s.lane p).forcedRate.toNat
  | _ => (s.port p).rate.toNat

/-- LANE_STATUS (R64): the reply, with ATTEMPTS read and cleared. (DESIGN CHOICE: log entries 203, 204.) -/
def laneStatusAct (c : Cmd) (s : State) : State × Option Ans :=
  let n := laneOf c
  let l := s.lane n
  let v := match s.lanePort? n with | some p => s.port p | none => {}
  let st := s.laneState n
  let rate := s.rateInUse n
  let order := match s.lanePort? n with | some p => if p = n then l.order.toNat else 0 | none => l.order.toNat
  let w0 := pack [(0, st.code), (4, rate), (7, b2n l.inverted), (8, b2n l.txPolInvert),
    (9, order), (11, l.logical.toNat), (14, b2n l.signal), (15, b2n l.lock), (16, l.fom.toNat)]
  done (s.setLane n { l with attempts := 0 }) [w0, pack [(0, l.attempts.toNat), (16, v.lastCause.toNat)]]

def execLaneStatus (c : Cmd) (s : State) : Res := .next (runCmd 0x0202 c s (laneStatusAct c))

/-! ### Equalisation -/

/-- The word of Table 2-8 with the values in force; c(0) is 64 less the other taps (R53). -/
def txEqWord (l : Lane) : Word :=
  pack [(0, l.preMag.toNat), (8, l.postMag.toNat), (16, l.amp.toNat), (24, 64 - l.preMag.toNat - l.postMag.toNat)]

/-- LANE_TX_EQ (R53, R54, R66). -/
def laneTxEqAct (c : Cmd) (s : State) : State × Option Ans :=
  let n := laneOf c
  let w := wd c.words 1
  let l := s.lane n
  if bit w 31 then
    if w ≠ 0x80000000#32 then fail s stBadParam else done s [txEqWord l]
  else if 16 < fld w 0 5 ∨ 24 < fld w 8 5 ∨ 12 < fld w 16 4 then fail s stBadParam
  else
    let l' : Lane :=
      { l with
          preMag := BitVec.ofNat 5 (fld w 0 5), postMag := BitVec.ofNat 5 (fld w 8 5)
          amp := BitVec.ofNat 4 (fld w 16 4) }
    done (s.setLane n l') [txEqWord l']

def execLaneTxEq (c : Cmd) (s : State) : Res := .next (runCmd 0x0203 c s (laneTxEqAct c))

/-- The equaliser values of words 1 to 9 (Table 2-9). -/
def rxEqOf (ws : List Word) : RxEq :=
  { ctle := BitVec.ofNat 5 (fld (wd ws 1) 0 5), dfe1 := BitVec.ofNat 8 (fld (wd ws 1) 8 8)
    ffe := (List.range 32).map fun k => BitVec.ofNat 8 (fld (wd ws (2 + k / 4)) (8 * (k % 4)) 8) }

/-- Equaliser values held to the ranges of Table 2-9. (DESIGN CHOICE: log entry 39.) -/
def heldEq (e : RxEq) : RxEq :=
  { e with
      dfe1 := BitVec.ofInt 8 (max (-64) (min 63 (signed 8 e.dfe1.toNat)))
      ffe := (List.range 32).map fun k =>
        let x := e.ffe.getD k 0
        if k = 4 then BitVec.ofNat 8 (max 32 (min 127 x.toNat)) else x }

/-- The nine words of Table 2-9. -/
def rxEqWords (e : RxEq) : List Word :=
  pack [(0, e.ctle.toNat), (8, e.dfe1.toNat)] ::
    (List.range 8).map fun i => pack ((List.range 4).map fun j => (8 * j, ((e.ffe.getD (4 * i + j) 0).toNat)))

/-- FIXED values in range: DFE1 from -64 to +63, the main tap from 32 to 127. -/
def rxEqOk (e : RxEq) : Bool :=
  let d := signed 8 e.dfe1.toNat
  decide (-64 ≤ d) && decide (d ≤ 63) && decide (32 ≤ (e.ffe.getD 4 0).toNat) && decide ((e.ffe.getD 4 0).toNat ≤ 127)

/-- The reply of LANE_RX_EQ for a lane (R67): the values in force. -/
def rxEqReply (s : State) (n : Nat) : State × Option Ans :=
  done s (pack [(0, n), (20, (s.lane n).rxMode.toNat)] :: rxEqWords (s.lane n).eq)

/-- LANE_RX_EQ (R55, R67). -/
def laneRxEqAct (c : Cmd) (s : State) : State × Option Ans :=
  let n := laneOf c
  let w := wd c.words 0
  let mode := fld w 20 2
  if bit w 31 then
    if mode ≠ 0 then fail s stBadParam else rxEqReply s n
  else if mode = 3 then fail s stBadParam
  else if mode = 2 then
    let e := rxEqOf c.words
    if rxEqOk e = false then fail s stBadParam
    else rxEqReply (s.modLane n fun l => { l with rxMode := 2, eq := e }) n
  else rxEqReply (s.modLane n fun l => { l with rxMode := BitVec.ofNat 2 mode }) n

def execLaneRxEq (c : Cmd) (s : State) : Res := .next (runCmd 0x0204 c s (laneRxEqAct c))

/-- LANE_FOM_READ (R57, R68). -/
def laneFomReadAct (c : Cmd) (s : State) : State × Option Ans :=
  let n := laneOf c
  let count := fld (wd c.words 0) 10 8
  if count = 0 ∨ 128 < count ∨ 128 < n % 128 + count then fail s stBadParam
  else
    done s ((List.range (ceilDiv count 2)).map fun i =>
      pack [(0, (s.lane (n + 2 * i)).fom.toNat),
            (16, if 2 * i + 1 < count then (s.lane (n + 2 * i + 1)).fom.toNat else 0)])

def execLaneFomRead (c : Cmd) (s : State) : Res := .next (runCmd 0x0205 c s (laneFomReadAct c))

/-! ### PRBS -/

/-- A pattern is reserved, or PAM4-only at a rate code of 0 or 1 (R59). -/
def patternBad (pat rate : Nat) : Bool := decide (10 ≤ pat) || (decide (7 ≤ pat) && decide (rate < 2))

/-- The counters of a locked checker advance by what it has compared since its last row (R61). -/
def Lane.count (l : Lane) (bits errs : Nat) : Lane :=
  if l.prbsLock then
    { l with
        prbsBits := l.prbsBits + BitVec.ofNat 64 bits
        prbsErrs := BitVec.ofNat 48 (l.prbsErrs.toNat + errs)
        prbsSticky := l.prbsSticky || decide (2 ^ 48 ≤ l.prbsErrs.toNat + errs) }
  else l

/-- PRBS_CONFIG (R59, R60, R65). -/
def prbsConfigAct (c : Cmd) (bits errs : Nat) (s : State) : State × Option Ans :=
  let n := laneOf c
  let w := wd c.words 1
  let gen := fld w 0 4
  let chk := fld w 4 4
  let r := s.testRate n
  let up : Bool := match s.lanePort? n with | some p => (s.port p).adminUp | none => false
  if patternBad gen r ∨ patternBad chk r then fail s stBadParam
  else if up ∧ (gen ≠ 0 ∨ chk ≠ 0) then fail s stBusy
  else
    let s := s.modLane n fun l =>
      { l.count bits errs with
          genPattern := BitVec.ofNat 4 gen, chkPattern := BitVec.ofNat 4 chk
          prbsLock := l.prbsLock && decide (chk ≠ 0) && decide (l.chkPattern.toNat = chk) }
    let s := if bit w 8 = true ∧ gen ≠ 0 then s.emit (.prbsInvert n) else s
    match s.lanePort? n with
    | none => done (if gen = 0 ∧ chk = 0 then s.modLane n Lane.off else s)
    | some p =>
      if s.prbsOn p then done (s.modPort p fun v => if v.state = .disabled then { v with state := .test } else v)
      else if (s.port p).state = .test then
        done ((s.modLanes p Lane.off).modPort p fun v =>
          { v with state := if v.adminUp then .waitSignal else .disabled })
      else done s

def execPrbsConfig (c : PrbsCmd) (s : State) : Res := .next (runCmd 0x0206 c.cmd s (prbsConfigAct c.cmd c.bits c.errs))

/-- PRBS_READ (R61, R65). -/
def prbsReadAct (c : Cmd) (bits errs : Nat) (s : State) : State × Option Ans :=
  let n := laneOf c
  let l := (s.lane n).count bits errs
  let ws := pack [(0, b2n l.prbsLock), (1, b2n l.prbsSticky)] :: wordsOf l.prbsBits.toNat 2 ++ wordsOf l.prbsErrs.toNat 2
  let l' : Lane :=
    if bit (wd c.words 0) 31 then { l with prbsBits := 0, prbsErrs := 0, prbsSticky := false } else l
  done (s.setLane n l') ws

def execPrbsRead (c : Cmd) (bits errs : Nat) (s : State) : Res := .next (runCmd 0x0207 c s (prbsReadAct c bits errs))

/-- LANE_RETRAIN (R48, R69); one that names a lane of no configured port completes with OK and no effect.
(DESIGN CHOICE: log entry 183.) -/
def laneRetrainAct (c : Cmd) (s : State) : State × Option Ans :=
  match s.lanePort? (laneOf c) with
  | none => done s
  | some p =>
    if (s.port p).state = .disabled ∨ (s.port p).state = .test then done s
    else done ((s.modPort p fun v => { v with withdrawn := 0, trainFails := 0 }).restartPort p)

def execLaneRetrain (c : Cmd) (s : State) : Res := .next (runCmd 0x0208 c s (laneRetrainAct c))

/-! ### Bring-up -/

/-- An event of a configured port's bring-up acts only in its state. -/
def inState (p : Nat) (st : LaneState) (s : State) (f : Port → State) : Res :=
  if p < 1024 then
    match s.port? p with
    | some v => .next (if v.state = st then f v else s)
    | none => .next s
  else .fault .noSuchObject

/-- An attempt begins when signal is seen: it counts in ATTEMPTS of every lane of the port (R69).
(DESIGN CHOICE: log entry 168.) -/
def State.beginAttempt (s : State) (p : Nat) : State :=
  s.modLanes p fun l => { l with attempts := satAdd 16 l.attempts 1 }

/-- Signal is seen in WAIT_SIGNAL: on the lowest lane with auto-negotiation, on all lanes in forced mode (R46); not while an injection
forces its loss on the lowest lane (Table 12-1). (DESIGN CHOICE: log entry 40.) -/
def execSignalDetected (port : Nat) (s : State) : Res :=
  inState port .waitSignal s fun _ =>
    if s.held dLinkFault port then s
    else
    let s := s.beginAttempt port
    if (s.lane port).anEnable then
      (s.modLane port fun l => { l with signal := true }).modPort port fun v => { v with state := .negotiate }
    else
      (s.modLanes port fun l => { l with signal := true }).modPort port fun v =>
        { v with state := .train, rate := (s.lane port).forcedRate }

/-- IEEE 802.3 defines a Clause 73 technology ability bit for a width and rate code of Table 3-1; it has none for eight lanes of
50 Gb/s. (PRESUMED: log entry 166.) -/
def abilityBit (width code : Nat) : Bool := comboOk width code && !(decide (width = 8) && decide (code = 2))

/-- The exchange resolves the highest common rate at the port's width, or none (R47, R70). -/
def execNegotiationResolved (port : Nat) (partner : BitVec 5) (s : State) : Res :=
  inState port .negotiate s fun v =>
    let mine := (s.lane port).rateEnable &&& ~~~ v.withdrawn &&& partner
    match codesDown.find? fun n => mine.getLsbD n && abilityBit v.width.toNat n with
    | none => s.takeDown port .waitSignal (some causeNoAbility)
    | some r =>
      (s.modLanes port fun l => { l with signal := true }).modPort port fun w =>
        { w with
            state := .train, rate := BitVec.ofNat 3 r
            trainFails := if v.failRate.toNat = r then v.trainFails else 0, failRate := BitVec.ofNat 3 r }

def execNegTimeout (port : Nat) (s : State) : Res :=
  inState port .negotiate s fun _ => s.takeDown port .waitSignal (some causeNegTimeout)

/-- Training frames are exchanged: training is enabled and the rate code is 2 or more (R46). -/
def State.trains (s : State) (p : Nat) : Bool := (s.lane p).trainEnable && decide (2 ≤ (s.port p).rate.toNat)

/-- Sets RX_POL_INV of the lanes of a port from what was found, where RX_POL_AUTO is set (R50). -/
def State.setPolarity (s : State) (p : Nat) (inverted : List Bool) : State :=
  (s.portLanes p).foldl
    (fun t l => t.modLane l fun x => if x.rxPolAuto then { x with rxPolInv := inverted.getD (l - p) false } else x) s

/-- Every lane reports training done: polarity from the training frames, and on to ALIGN (R46, R50). -/
def execTrainingDone (port : Nat) (inverted : List Bool) (s : State) : Res :=
  inState port .train s fun _ =>
    let s := if s.trains port then s.setPolarity port inverted else s
    (s.modLanes port fun l => { l with signal := true, lock := true }).modPort port fun v =>
      { v with state := .align, trainFails := 0, skewHigh := false }

/-- TRAIN passes its limit; the third failure in a row at a resolved rate withdraws it with FALLBACK_ENABLE (R48). The run begins
again at TRAINING_DONE, at LANE_RETRAIN and at another rate; a NEG_TIMEOUT does not break it. -/
def execTrainTimeout (port : Nat) (s : State) : Res :=
  inState port .train s fun v =>
    let an := (s.lane port).anEnable
    let n := v.trainFails + 1
    let wd := an && (s.lane port).fallbackEnable && decide (3 ≤ n)
    (s.modPort port fun w =>
      { w with
          trainFails := if wd then 0 else if an then n else 0
          withdrawn := if wd then w.withdrawn ||| (1#5 <<< v.rate.toNat) else w.withdrawn }).takeDown port .waitSignal
      (some causeTrainTimeout)

/-- The order code of a port's logical lanes (R51). -/
def orderCode (logical : List Nat) : BitVec 2 :=
  if logical = List.range logical.length then 0
  else if logical = (List.range logical.length).reverse then 1 else 2

/-- Stores the receive delays that ALIGN measured, by logical lane (R91). -/
def Port.setDelays (v : Port) (logical delays : List Nat) : Port :=
  { v with
      laneDelay := (logical.zip delays).foldl (fun t e => tins t e.1 (word e.2)) v.laneDelay
      delayValid := logical.foldl (fun m n => m ||| (1#8 <<< n)) v.delayValid }

/-- A cluster declared FAILED, and a port held down by a lost clock group, never reach UP (R384, R394). -/
def State.heldDown (s : State) (p : Nat) : Bool :=
  thas s.err.failedClusters (laneCluster p) || s.clockFault (laneChiplet p) (laneRegion p)

/-- A DEGRADED port under DEGRADE_ACTION 2 waits in ALIGN and does not reach UP until it is DEGRADED no more (R390).
(DESIGN CHOICE: log entry 195.) -/
def State.degradeHeld (s : State) (p : Nat) : Bool := (s.port p).degraded && decide ((s.detCfg dFecDegrade p).action = 2)

/-- Alignment lock on every lane: the lane numbers read, order corrected and skew removed, then UP; with a skew beyond 64 ns the port stays in ALIGN until
its limit (R46, R51, R91). -/
def execAlignLock (port : Nat) (logical : List Nat) (skewNs : Nat) (delaysPs : List Nat) (inverted : List Bool)
    (s : State) : Res :=
  inState port .align s fun _ =>
    let s := if s.trains port then s else s.setPolarity port inverted
    -- what the last lock found says whether the skew is too large
    let s := s.modPort port fun v => { v.setDelays logical delaysPs with skewHigh := decide (64 < skewNs) }
    let s := (s.portLanes port).foldl
      (fun t l => t.modLane l fun x => { x with logical := BitVec.ofNat 3 (logical.getD (l - port) (l - port)), signal := true, lock := true }) s
    if 64 < skewNs ∨ s.heldDown port = true ∨ s.degradeHeld port = true then s
    else
      ((s.modLane port fun x => { x with order := orderCode logical }).modPort port fun v => { v with state := .up }).protectAll

def execAlignTimeout (port : Nat) (s : State) : Res :=
  inState port .align s fun v => s.takeDown port .waitSignal (some (if v.skewHigh then causeSkew else causeAlignTimeout))

/-- Loss of signal or lock on a lane leaves no measurement of it (R56), and takes its port out of UP (R49). -/
def State.laneLost (s : State) (lane : Nat) (lock : Bool) : State :=
  let s := s.modLane lane fun l =>
    if lock then { l with lock := false, fom := 0x8000 } else { l with signal := false, lock := false, fom := 0x8000 }
  match s.lanePort? lane with
  | none => s
  | some p =>
    if (s.port p).state = .up then
      s.takeDown p .waitSignal (some (if lock then causeLockLost else causeSignalLost))
    else s

def execSignalLost (lane : Nat) (lock : Bool) (s : State) : Res := onNum (decide (lane < 1024)) (s.laneLost lane lock)

/-- Raises LANE_FOM_LOW or LANE_FOM_OK when a run of 16 windows is complete (R58). LANE_FOM_LOW comes once
and not again before LANE_FOM_OK, and that is remembered outside UP and over PORT_DELETE.
(DEDUCED, DESIGN CHOICE: log entries 41, 170.) -/
def State.fomEvents (s : State) (n : Nat) : State :=
  let l := s.lane n
  if l.lowRaised = false ∧ 16 ≤ l.lowWindows then
    (s.setLane n { l with lowRaised := true, okWindows := 0 }).raise (1 + laneRegion n) 0x0201 [word n]
  else if l.lowRaised = true ∧ 16 ≤ l.okWindows then
    (s.setLane n { l with lowRaised := false, lowWindows := 0 }).raise (1 + laneRegion n) 0x0202 [word n]
  else s

/-- What a window leaves in the equaliser (R55). Where it adapts: the feed-forward taps, unless the window was worse by more than
300 mdB, which brings those of the window before back, DFE1 not among them; the CTLE boost freely in TRAIN, in UP by at most one code in
1,024 windows. Where it does not adapt, the values in force. (DESIGN CHOICE: log entry 185.) -/
def Lane.adapt (l : Lane) (st : LaneState) (fom : BitVec 16) (e : RxEq) : Lane :=
  if l.rxMode ≠ 0 ∨ (st ≠ .train ∧ st ≠ .up) then { l with eqPrev := l.eq }
  else
    let e := heldEq e
    let worse := decide (l.fom ≠ 0x8000) && decide (fom ≠ 0x8000) &&
      decide (signed 16 fom.toNat + 300 < signed 16 l.fom.toNat)
    let ffe := if worse then l.eqPrev.ffe else e.ffe
    let n := l.ctleWindows + 1
    let move := decide (1024 ≤ n) && decide (e.ctle ≠ l.eq.ctle)
    let step := if l.eq.ctle.toNat < e.ctle.toNat then l.eq.ctle + 1 else l.eq.ctle - 1
    let ctle := if st = .train then e.ctle else if move then step else l.eq.ctle
    { l with
        eq := { e with ffe := ffe, ctle := ctle }, eqPrev := { e with ctle := ctle }
        ctleWindows := if st = .train ∨ move = true then 0 else n }

/-- The end of a figure-of-merit window (R55, R56, R58): the value of a locked lane is stored. In UP loss of signal or lock has a row of
its own; elsewhere the row tells of them. -/
def execFomWindowEnd (lane : Nat) (window : FomWindow) (eq : RxEq) (s : State) : Res :=
  onNum (decide (lane < 1024))
    (let st := s.laneState lane
     let l := s.lane lane
     let l : Lane :=
       if st = .up ∨ st = .disabled then l
       else if s.held dLinkFault lane then { l with signal := false, lock := false }
       else { l with signal := window.signal || window.lock, lock := window.lock }
     if st = .disabled ∨ st = .waitSignal ∨ l.lock = false then
       s.setLane lane { l with fom := 0x8000, lowWindows := 0, okWindows := 0, eqPrev := l.eq }
     else
       let new := signed 16 window.fom.toNat
       let warn := signed 16 l.fomWarn.toNat
       let l2 : Lane :=
         { l.adapt st window.fom eq with
             fom := window.fom
             lowWindows := if st = .up ∧ new < warn then l.lowWindows + 1 else 0
             okWindows := if st = .up ∧ warn + l.fomHyst.toNat ≤ new then l.okWindows + 1 else 0 }
       let s := s.setLane lane l2
       if st = .up then s.fomEvents lane else s)

/-! ### PRBS and coefficient events -/

/-- A running checker locks (R61): the phase-tracking loop under it has locked (R52). -/
def execPrbsCheckerLock (lane : Nat) (s : State) : Res :=
  onNum (decide (lane < 1024))
    (s.modLane lane fun l => if l.chkPattern ≠ 0 then { l with prbsLock := true, signal := true, lock := true } else l)

/-- A locked checker loses lock; what it compared until then is counted (R61). -/
def execPrbsLockLost (lane bits errs : Nat) (s : State) : Res :=
  onNum (decide (lane < 1024)) (s.modLane lane fun l => { l.count bits errs with prbsLock := false })

/-- A coefficient request moves a tap one step in TRAIN; beyond its range it is answered "at limit" and the tap stays (R53). -/
def execCoefficientRequest (lane : Nat) (post up : Bool) (s : State) : Res :=
  onNum (decide (lane < 1024))
    (if s.laneState lane ≠ .train then s
     else
       let l := s.lane lane
       let mag := if post then l.postMag.toNat else l.preMag.toNat
       let lim := if post then 24 else 16
       if (if up then decide (lim ≤ mag) else decide (mag = 0)) = true then s.emit (.tapAtLimit lane post)
       else
         let n := BitVec.ofNat 5 (if up then mag + 1 else mag - 1)
         s.setLane lane (if post then { l with postMag := n } else { l with preMag := n }))

end Sys2Proof.Machine
end

