-- ==== Sys2Proof/Machine/Recovery.lean ====
section
/-!
DEFINITION. The detections and recoveries of chapter 12 (R379 to R396, Table 12-1): stored data, clusters, region state, the
glacier, the die-to-die link, links, stewards, clocks, and the conditions that reset the device.
-/

namespace Sys2Proof.Machine

/-! ### Granary cells (R382) -/

def execGranaryUe (region bank sub row : Nat) (cellOk : Bool) (s : State) : Res :=
  onNum (decide (region < 4) && decide (bank < 64) && decide (sub < 4) && decide (row < 1280))
    ((s.eccReal [dGranaryCe, dGranaryUe] dGranaryUe (region * 64 + bank) (cellAt bank sub row)).cellLost region (cellAt bank sub row) cellOk)

/-- The scrub meets the patterns that wait in a region's cells, two at most in a bank, but for those that its own findings tell of
(R381). -/
def State.scrubInjected (s : State) (region : Nat) (told : List Nat) : State :=
  ((List.range 64) ++ List.range 64).foldl
    (fun t bank =>
      let inst := region * 64 + bank
      match t.eccMeets dGranaryCe dGranaryUe dGranaryUe inst none with
      | (u, some (n, a)) =>
        if told.contains a then u
        else if n = 1 then u.detect dGranaryCe inst a false
        else u.cellLost region a true
      | (u, none) => u) s

/-- A pass of the scrub over a region's cells. -/
def execGranaryScrub (region : Nat) (corrected : List Nat) (ues : List (Nat × Bool)) (s : State) : Res :=
  onNum (decide (region < 4) && (corrected.all fun n => decide (n < 327680)) && ues.all fun e => decide (e.1 < 327680))
    (let s := s.scrubInjected region (corrected ++ ues.map (·.1))
    let s := corrected.foldl
      (fun t n =>
        (t.eccReal [dGranaryCe, dGranaryUe] dGranaryCe (region * 64 + cellBank n) n).detect dGranaryCe (region * 64 + cellBank n) n false) s
    ues.foldl
      (fun t e => (t.eccReal [dGranaryCe, dGranaryUe] dGranaryUe (region * 64 + cellBank e.1) e.1).cellLost region e.1 e.2) s)

/-! ### Table memory (R174, R175, R396) -/

def execTableUe (region : Nat) (addr : Word) (pkt : Option Nat) (s : State) : Res :=
  onNum (decide (region < 4)) (((s.dropLookup pkt).eccReal [dTableCe, dTableUe] dTableUe region addr.toNat).tableLost region addr)

/-- The scrub meets the patterns that wait in a region's copy, of both its detectors; the answer is how many of the words were
corrected. -/
def State.scrubTable (s : State) (region : Nat) : State × Nat :=
  (List.range 2).foldl
    (fun (x : State × Nat) _ =>
      match x.1.eccMeets dTableCe dTableUe dTableUe region none with
      | (u, some (n, a)) => if n = 1 then (u.tableHit region a, x.2 + 1) else (u.tableLost region (word a), x.2)
      | (u, none) => (u, x.2)) (s, 0)

/-- A pass of the table scrub (R174): an uncorrectable word moves the region without any drop. What the row tells of the words
takes in what the patterns that wait there do. -/
def execTableScrub (region corrected : Nat) (ue : Option Word) (s : State) : Res :=
  onNum (decide (region < 4))
    (let s := match ue with
      | some a => (s.eccReal [dTableCe, dTableUe] dTableUe region a.toNat).tableLost region a
      | none => s
    let x := s.scrubTable region
    x.1.tableCorrected region (corrected - x.2))

/-! ### Cluster recovery (R384) -/

/-- The row does not tell the address of the word. (DESIGN CHOICE: log entry 216.) -/
def execClusterRecovery (cluster : Nat) (egress parity : Bool) (s : State) : Res :=
  onNum (decide (cluster < 16)) (let x := s.fresh
    x.2.recoverCluster cluster egress parity (x.1 % 2 ^ 32))

/-- The dynamic state of a port's receive side or transmit side, as an idle cluster holds it. (DEDUCED: log entry 134.) -/
def State.idleSide (s : State) (egress : Bool) (p : Nat) : State :=
  if egress then s.modPort p fun v => { v with ctThresh := v.ctBase, cleanCount := 0 }
  else
    let t := (s.endRecoveries p).modPort p fun v =>
      { v with pause := v.pause.map fun e => (e.1, { e.2 with until_ := none, since := 0 }) }
    t.modRegion (laneRegion p) fun g => { g with dispatch := tdel g.dispatch (laneBlock p) }

/-- A cluster is declared FAILED: its ports are held down until the next device reset. (DEDUCED: log entry 135.) -/
def State.failCluster (s : State) (det inst k : Nat) : State :=
  let t := { s with err := { s.err with failedClusters := tins s.err.failedClusters k () } }
  let t := (t.clusterPorts k).foldl
    (fun u p => if (u.port p).state = .disabled ∨ (u.port p).state = .test then u else u.takeDown p .waitSignal none) t
  t.unitFailed det inst 0

/-- Reload and verify end: the dynamic state is reset and the fence lifted. -/
def execFenceLift (cluster : Nat) (egress : Bool) (s : State) : Res :=
  onNum (decide (cluster < 16))
    (let key := 2 * cluster + b2n egress
    match tget? s.err.fences key with
    | none => s
    | some f =>
      let s := (s.clusterPorts cluster).foldl (fun t p => t.idleSide egress p) s
      let times := (tget s.err.recent cluster []).filter (fun t => decide (f.mark.startNs < t + 1000000000)) ++ [f.mark.startNs]
      let s := { s with err := { s.err with fences := tdel s.err.fences key, recent := tins s.err.recent cluster times } }
      let s := s.recoverMark f.mark 2 f.discarded
      if (s.detCfg f.mark.det f.mark.inst).failLimit.toNat ≤ times.length ∧
          thas s.err.failedClusters cluster = false then s.failCluster f.mark.det f.mark.inst cluster
      else s)

/-! ### Region state (R385) -/

/-- The region that a state word belongs to, where the word names it. -/
def wordRegion : RegionWord → Option Nat
  | .queueShaper q => some (queueRegion q)
  | .portShaper p => some (laneRegion p)
  | .headTag q => some (queueRegion q)
  | .virtualTime p _ => some (laneRegion p)
  | _ => none

def execRegionStateUe (region : Nat) (word : RegionWord) (s : State) : Res :=
  onNum
    (decide (region < 4) && (match wordRegion word with | some r => decide (r = region) | none => true) &&
      match word with | .meter i => decide (i < 65536) | _ => true)
    (match word with
      | .linkCopy addr => (s.spoilLink region (BitVec.ofNat 32 addr) 2).readLinks region
      | w =>
        -- the row does not tell the word's address
        let x := s.fresh
        x.2.stateUe region w (x.1 % 2 ^ 32))

/-- The counts recomputed from the held cells equal their twins, which admission used meanwhile. -/
def execAllocatorCountRecomputed (region : Nat) (s : State) : Res :=
  onNum (decide (region < 4))
    ((s.region region).recount.foldl (fun t m => t.recoverMark m 0 0) (s.modRegion region fun g => { g with recount := [] }))

/-! ### The glacier (R215, R386) -/

/-- A broken descriptor: every packet of the segment from it onward is lost. (DEDUCED: log entry 137.) -/
def execGlacierDescUe (queue keep : Nat) (s : State) : Res :=
  onNum (decide (queue < 16384))
    (match (s.queue queue).glacier[keep]? with
      | none => s
      | some k => s.descLost queue keep k)

/-- The pool audit ends: it frees the blocks that no segment reaches and tallies their packets. -/
def execPoolAuditDone (die : Nat) (s : State) : Res :=
  onNum (decide (die < 2))
    (let g := s.glacier die
    let n := g.orphans.length
    let s := g.orphans.foldl (fun t k => t.dropQueued k.queueNo k rsFaultDiscard) s
    let s := s.modGlacier die fun g => { g with orphans := [], audits := [] }
    g.audits.foldl (fun t m => t.recoverMark m 7 n) s)

/-- A stack fails: the die uses the glacier no more. -/
def State.stackFail (s : State) (stack : Nat) : State :=
  let d := stack / 2
  let m := s.mark dGlacierStack stack 0
  let s := (s.detect dGlacierStack stack 0 true).unitFailed dGlacierStack stack 4
  let qs := (tkeys s.queues).filter fun q => regionDie (queueRegion q) = d
  let s := qs.foldl (fun t q => (t.orphan q 0).1) s
  s.modGlacier d fun g => { g with failed := true, audits := g.audits ++ [m] }

def execGlacierStackFail (stack : Nat) (s : State) : Res := onNum (decide (stack < 4)) (s.stackFail stack)

/-! ### The die-to-die link (R388, R389) -/

/-- A flit's CRC mismatch: it and the flits sent behind it, at most 256 in all, are replayed in order, with none lost. A mismatch of
another flit than the replayed one ends a run of failed replays. (DEDUCED: log entry 194.) -/
def State.flitError (s : State) (f : BadFlit) : State :=
  let r := tget s.err.channels f.channel {}
  let r' : Replay := { flits := min 256 (f.behind + 1), failed := if f.again then r.failed + 1 else 0 }
  { s with err := { s.err with channels := tins s.err.channels f.channel r' } }.detectWithin dD2dCrc f.channel f.channel 5 200 0 false

def execD2dCrc (flit : BadFlit) (s : State) : Res := onNum (decide (flit.channel < 64)) (s.flitError flit)

/-- The channels of a direction that are not retired. -/
def State.healthyChannels (s : State) (dir : Nat) : Nat :=
  ((List.range 32).filter fun i => !thas s.err.retired (32 * dir + i)).length

def State.retire (s : State) (channel : Nat) : State :=
  { s with err := { s.err with retired := tins s.err.retired channel () } }

/-- Packets that were granted a crossing and whose cells the far granary has not confirmed are dropped (R34, R389). -/
def State.dropCrossing (s : State) : State :=
  let far (k : Pkt) : Bool := decide ((k.egress.getD 0) / 512 ≠ (k.ingress.getD 0) / 512)
  let lost := s.arrivals.filter far
  lost.foldl
    (fun t k => (t.uncross k).dropInAt k (if k.copy = 0 then rsPeerDieDown else rsPortDown))
    { s with arrivals := s.arrivals.filter fun k => !far k }

/-- Traffic between the dies stops in both directions. -/
def State.linkLost (s : State) (dir : Nat) : State :=
  let m := s.mark dD2dDown dir dir
  let t := (s.detect dD2dDown dir dir true).unitFailed dD2dDown dir 3
  if t.err.linkDown.isSome then t.logNow dD2dDown dir dir 0 0 true m.injected else ({ t with err := { t.err with linkDown := some m } }).dropCrossing

/-- A direction is tested: D2D_LINK_DOWN is raised once when fewer than 26 of its channels are left (R389). -/
def State.linkTest (s : State) (dir : Nat) : State :=
  if s.healthyChannels dir < 26 ∧ (s.det dD2dDown dir).failed = false then s.linkLost dir else s

/-- The wires of a channel with 16 consecutive failed replays are tested: the failing one is replaced with a spare; with a fifth one
lost the channel is retired, which may leave too few (R388). -/
def State.wireTest (s : State) (channel wire : Nat) : State :=
  let inst := channel * 132 + wire
  if (tget s.err.channels channel {}).failed < 16 then s
  else
    let n := tget s.err.spares channel 0 + 1
    let t := { s with err := { s.err with spares := tins s.err.spares channel n, channels := tdel s.err.channels channel } }
    if n < 5 then t.detectWithin dD2dWire inst inst 5 1000 0 true
    else (((t.retire channel).detectLog dD2dWire inst inst).unitFailed dD2dWire inst 2).linkTest (channel / 32)

def execD2dWire (channel wire : Nat) (s : State) : Res :=
  onNum (decide (channel < 64) && decide (wire < 132)) (s.wireTest channel wire)

/-- DEDUCED: log entry 138. -/
def execD2dLinkDown (dir : Nat) (s : State) : Res := onNum (decide (dir < 2)) (s.linkTest dir)

/-- Channels have trained; with 26 healthy in each direction crossing traffic resumes. -/
def State.d2dHealthy (s : State) (healthy : List Nat) : State :=
    let s := healthy.foldl
      (fun t c => { t with err := { t.err with retired := tdel t.err.retired c, spares := tdel t.err.spares c, channels := tdel t.err.channels c } }) s
    match s.err.linkDown with
    | none => s
    | some m =>
      if 26 ≤ s.healthyChannels 0 ∧ 26 ≤ s.healthyChannels 1 then
        let t := { s with err := { s.err with linkDown := none } }
        let t := [0, 1].foldl (fun u d => u.setDet dD2dDown d { u.det dD2dDown d with failed := false }) t
        t.recoverMark m 5 0
      else s

/-- Retired channels are trained again. -/
def execD2dRetrain (healthy : List Nat) (s : State) : Res :=
  onNum (healthy.all fun c => decide (c < 64)) (s.d2dHealthy healthy)

/-! ### Links (R390, R391) -/

/-- DEGRADED changes: the event, and what depends on the port being in use. -/
def State.setDegraded (s : State) (p : Nat) (on : Bool) : State :=
  let t := s.modPort p fun v => { v with degraded := on, badWin := 0, goodWin := 0, fecHit := false }
  (t.raise (1 + laneRegion p) 0x0905 [word p, word (b2n on)] (some p)).protectAll

/-- A link fault takes the port out of UP and begins an alarm with this cause. -/
def State.portFault (s : State) (p cause : Nat) : State :=
  let t := if (s.port p).state = .up then s.takeDown p .waitSignal none else s
  t.startAlarm p cause

/-- A DEGRADED port under action 2 is taken out of UP (R390). -/
def State.degradeAct (s : State) (p : Nat) : State :=
  if s.degradeHeld p = true ∧ (s.port p).state = .up then s.portFault p 1 else s

/-- An FEC window ends of a port in UP, or of one that waits in ALIGN to be DEGRADED no more; rate codes 0 and 1 have no FEC (R71). Its
codewords with up to 15 symbol errors are corrected, the others uncorrected, one at least where a frame of the window met one. An injection
strikes one of its codewords. (DEDUCED: log entry 47.) -/
def execFecDegradeWindow (port beyond : Nat) (errs : List Nat) (s : State) : Res :=
  onNum (decide (port < 1024))
    (match s.port? port with
      | none => s
      | some v =>
        if (v.state ≠ .up ∧ ¬ (v.state = .align ∧ s.degradeHeld port = true)) ∨ v.hasFec = false then s
        else
          let c := s.detCfg dFecDegrade port
          let hit := s.err.injections.find? fun j => j.touches dFecDegrade port 0
          let errs := match hit with | some j => j.pattern.toNat :: errs | none => errs
          let fixed := errs.filter fun n => decide (0 < n) && fecCorrects n
          let symbols := fixed.foldl (· + ·) 0
          let uncorr := max (b2n v.uncorrSeen) (beyond + (errs.filter fun n => !fecCorrects n).length)
          let s := (((s.mac port 34 fixed.length).mac port 35 uncorr).mac port 36 symbols).modPort port fun w => { w with uncorrSeen := false }
          let bad := decide (c.uncorrTh.toNat ≤ uncorr) || decide (c.symTh.toNat ≤ symbols)
          let touched := bad && (v.fecHit || hit.isSome)
          let s := s.modPort port fun w =>
            { w with badWin := if bad then v.badWin + 1 else 0, goodWin := if bad then 0 else v.goodWin + 1, fecHit := touched }
          if bad = true ∧ v.degraded = false ∧ c.badWindows.toNat ≤ v.badWin + 1 then
            ((s.setDegraded port true).detectTouched dFecDegrade port port touched).degradeAct port
          else
            let s := if hit.isSome then s.useInjection dFecDegrade port 0 else s
            if bad = false ∧ v.degraded = true ∧ c.clearWindows.toNat ≤ v.goodWin + 1 then s.setDegraded port false else s)

/-- A port's link fault (R391). -/
def execLinkFault (port : Nat) (s : State) : Res :=
  onNum (decide (port < 1024))
    (if s.hasPort port then (s.portFault port 0).detectLog dLinkFault port port else s)

/-! ### Stewards (R393, R395) -/

/-- The engine after a reset: its control store reloaded, its tasks to resume from their last YIELD (R395). -/
def Steward.restart (g : Steward) : Steward :=
  { g with
      micro := {}, io := {}, stalled := false, tasks := g.tasks ++ g.lastYield.toList, lastYield := none, saved := none, handler := 0
      handlerRun := 0, causes := [], damaged := [] }

/-- A steward watchdog fault: the engine is reset and its control store reloaded; the command in its hands is ended, what it held
is handed back. -/
def State.watchdogFault (s : State) (engine : Nat) : State :=
    if (s.engine engine).state = .reset ∨ (s.engine engine).state = .loading then s
    else
      let loads := s.cif.flights.any fun f => s.inHand engine f && decide (f.cmd.opcode = 0x0A02)
      let s := s.endInHand engine stAborted
      let s := if loads then { s with stw := { s.stw with staging := .empty, length := 0, bytes := [], staged := none } } else s
      let g := s.engine engine
      let s := s.setEngine engine g.restart
      let s := match s.stw.patch with
        | some p => if engine = 0 then s.patchFail p stAborted else s
        | none => s
      -- a move that the fault has interrupted is completed first (R146)
      let s := if engine = 0 then s.finishMoves else s
      (s.detectWithin dWatchdog engine 0 6 40000 0 true).release engine

def execStewardWatchdog (engine : Nat) (s : State) : Res := onNum (decide (engine < 5)) (s.watchdogFault engine)

/-- An uncorrectable word of a command buffer: the command ends, all or none. -/
def execCmdBufUe (src : Sender) (q : Nat) (tag : BitVec 12) (s : State) : Res :=
  .next
    (match s.cif.flights.find? fun f => isTag src q tag f && !f.rejected with
      | none => s
      | some f =>
        let s :=
          match f.phase with
          | .done => s
          | .forwarded _ _ => s
          | _ =>
            if s.hasResult f.cmd || s.inTask f.cmd then s
            else s.endCmd f (s.mkReply f.cmd stAborted [] false)
        -- the row does not tell which of its words
        let x := s.fresh
        x.2.detectWithin dCmdBuf (senderChannel src) (x.1 % 2 ^ 32) 1 20000 0 true)

/-! ### Clocks (R394) -/

/-- The PLL groups in the order of Table 14-2: CW, CE, T0 to T7, HW, HE, XW, XE, S, P, A. -/
def clockGroup (d : Nat) : Option Nat :=
  if d = 0 ∨ d = 1 ∨ d = 4 ∨ d = 5 then some 0
  else if d < 8 then some 1
  else if d < 24 then some (2 + d % 8)
  else if d < 26 then some 10
  else if d < 28 then some 11
  else if d = 28 then some 12
  else if d = 29 then some 13
  else if d = 30 ∨ d = 31 ∨ d = 34 ∨ d = 36 then some 14
  else if d = 32 then some 15
  else if d = 33 ∨ d = 35 ∨ d = 38 then some 16
  else none

/-- The domains of a PLL group, as bits. -/
def groupBits (g : Nat) : BitVec 40 :=
  BitVec.ofNat 40 (((List.range 40).filter fun d => decide (clockGroup d = some g)).foldl (fun n d => n + 2 ^ d) 0)

/-- The receive side of a chiplet loses the frames in reception and those that begin during the switch, of at most 1 µs.
(DESIGN CHOICE: log entry 140.) -/
def State.stopRx (s : State) (chiplet : Nat) : State :=
  let x := s.fresh
  let s := x.2
  let s := { s with pwr := { s.pwr with rxStop := tins s.pwr.rxStop chiplet (s.time.runNs + x.1 % 1001) } }
  ((tkeys s.ports).filter fun p => laneChiplet p = chiplet).foldl
    (fun t p => t.modPort p fun v => { v with rx := v.rx.map fun r => { r with discard := true, clkStopped := true } }) s

/-- Takes down every port that is held down now. -/
def State.holdPorts (s : State) : State :=
  (tkeys s.ports).foldl
    (fun t p =>
      if t.heldDown p = true ∧ (t.port p).state ≠ .disabled ∧ (t.port p).state ≠ .test then t.takeDown p .waitSignal none else t) s

/-- Both PLLs of a group are lost: its units are faulted, and the ports they serve are held down.
(DEDUCED: log entry 141.) -/
def State.groupLost (s : State) (g domain : Nat) : State :=
  let bits := groupBits g
  let s := { s with pwr := { s.pwr with clkFailed := s.pwr.clkFailed ||| bits, clocks := s.pwr.clocks &&& ~~~ bits } }
  let s := (s.detectLog dClockLoss domain domain).unitFailed dClockLoss domain 5
  let s := s.holdPorts
  if g = 10 ∨ g = 11 then s.modGlacier (g - 10) fun x => { x with failed := true }
  else if g = 12 ∨ g = 13 then s.linkLost (g - 12)
  else if g = 15 then { s with cif := { s.cif with pcieUp := false } }
  else s

/-- A clock is lost: the reference, a domain's primary PLL, or its standby. -/
def State.clockLost (s : State) (domain : Nat) : State :=
  if domain = 39 then
    let m := s.mark dClockLoss 39 39
    let t := s.detectLog dClockLoss 39 39
    { t with
        aon := { t.aon with refPresent := false }
        err := { t.err with refLoss := some (t.err.refLoss.getD m) } }
  else
    match clockGroup domain with
    | none => s
    | some g =>
      if s.pwr.onStandby.getLsbD domain then s.groupLost g domain
      else
        let s := { s with pwr := { s.pwr with onStandby := s.pwr.onStandby ||| groupBits g } }
        let s := s.detectWithin dClockLoss domain domain 5 1000 0 true
        if 2 ≤ g ∧ g ≤ 9 then s.stopRx (g - 2) else s

/-- The loss of a domain's primary PLL, of its standby, or of the reference. JCLK is never raised. -/
def execClockLoss (domain : Nat) (s : State) : Res :=
  onNum (decide (domain < 40) && decide (domain ≠ 37)) (s.clockLost domain)

/-- The reference returns, where no injection holds it off: the PLLs lock to it again. -/
def execReferenceRestored (s : State) : Res :=
  .next
    (if s.aon.refPresent = true ∨ s.held dClockLoss 39 = true then s
    else
      let t := { s with aon := { s.aon with refPresent := true }, err := { s.err with refLoss := none } }
      match s.err.refLoss with
      | some m => t.recoverMark m 0 0
      | none => t)

/-! ### What resets the device (R380, R394, R436, R443) -/

/-- A detection that resets the device: its record goes to the error log and, before the reset, to the journal. -/
def State.fatal (s : State) (det inst cause : Nat) (hold : Option (BitVec 3)) : State :=
  let t := s.detectLog det inst inst
  t.deviceReset cause t.err.log.getLast? hold

def execReferenceLossTimeout (s : State) : Res :=
  .next (if s.started = true ∧ s.aon.refPresent = false then s.fatal dClockLoss 39 4 none else s)

/-- The offset in m°C or mV that an injection adds to the monitor reading of a row, and to that one alone (R400). -/
def State.offset (s : State) (det inst : Nat) : Int :=
  match s.err.injections.find? fun j => j.touches det inst 0 with
  | some j => j.pattern.toInt
  | none => 0

/-- A reading in eighths of a degree with the offset that an injection adds. -/
def State.heatWith (s : State) (det sensor : Nat) (reading : Int) : Int := reading + s.offset det sensor * 8 / 1000

/-- A junction passes the warning threshold, or falls back below it by more than the hysteresis. -/
def execThermalWarn (sensor : Nat) (reading : Int) (s : State) : Res :=
  onNum (decide (sensor < 29))
    (let warn : Int := s.pwr.warnC.toNat
    let hyst : Int := s.pwr.hystC.toNat
    let on := thas s.aon.warned sensor
    let reading := s.heatWith dThermalWarn sensor reading
    if on = false ∧ warn * 8 < reading then
      let t := s.detectLog dThermalWarn sensor sensor
      { t with aon := { t.aon with warned := tins t.aon.warned sensor () } }
    else
      let t := s.useInjection dThermalWarn sensor sensor
      if on = true ∧ reading < (warn - hyst) * 8 then { t with aon := { t.aon with warned := tdel t.aon.warned sensor } } else t)

/-- A junction above 135 °C for 1 ms: held in reset until every sensor reads 120 °C or less. -/
def execThermalTrip (sensor : Nat) (reading : Int) (s : State) : Res :=
  onNum (decide (sensor < 29))
    (if s.started = true ∧ 135 * 8 < s.heatWith dThermalTrip sensor reading then s.fatal dThermalTrip sensor 2 (some 2)
    else s.useInjection dThermalTrip sensor sensor)

/-- The trip window of a rail in mV (Table 14-1); of VAUX the upper limit alone, and of VDD_LANE_A the nearest mV. -/
def railOut (rail mv : Nat) : Bool :=
  match rail with
  | 0 => decide (3780 < mv)
  | 1 => decide (mv < 665) || decide (840 < mv)
  | 2 => decide (mv < 760) || decide (840 < mv)
  | 3 => decide (mv < 713) || decide (787 < mv)
  | 4 => decide (mv < 855) || decide (945 < mv)
  | 5 => decide (mv < 1140) || decide (1260 < mv)
  | 6 => decide (mv < 1045) || decide (1155 < mv)
  | _ => decide (mv < 760) || decide (840 < mv)

/-- A rail outside its trip window for 1 µs: held in reset until every rail has been in range for 10 ms. -/
def execVoltageOor (rail mv : Nat) (s : State) : Res :=
  onNum (decide (rail < 8))
    (if s.started = true ∧ railOut rail (mv + s.offset dVoltage rail).toNat = true then s.fatal dVoltage rail 3 (some 3)
    else s.useInjection dVoltage rail rail)

end Sys2Proof.Machine
end

