-- ==== Sys2Proof/Machine/Power.lean ====
section
/-!
DEFINITION. Power, clocks and die hold: the commands of group 0x0C, the adaptive supply loop (R438), stopped clock branches
(R441), and what stopping and releasing a core die does (R32 to R35, R296, R300, R445).
-/

namespace Sys2Proof.Machine

/-! ### Status and configuration (Tables 14-9 to 14-11) -/

/-- `n` free 32-bit words. -/
def State.freshWords (s : State) : Nat → State × List Word
  | 0 => (s, [])
  | n + 1 =>
    let x := s.fresh
    let y := x.2.freshWords n
    (y.1, word x.1 :: y.2)

/-- POWER_STATUS: what the monitors measure is free; VID and AT_CEILING are the loop's. (DESIGN CHOICE: log entry 126.) -/
def powerStatusAct (s : State) : State × Option Ans :=
  let x := s.freshWords 24
  let p := x.1.pwr
  let m := x.2
  done x.1
    (m.take 8 ++ [pack [(0, p.vid.toNat), (7, b2n p.atCeiling)], word (fld (wd m 8) 0 16)] ++ (m.drop 9).take 14 ++
      [word (fld (wd m 23) 0 16)])

def execPowerStatus (c : Cmd) (s : State) : Res := .next (runCmd 0x0C01 c s powerStatusAct)

def thermalConfigAct (c : Cmd) (s : State) : State × Option Ans :=
  let w := wd c.words 1
  let warn := fld w 0 8
  let hyst := fld w 8 4
  if warn < 60 ∨ 125 < warn ∨ hyst = 0 then fail s stBadParam
  else done { s with pwr := { s.pwr with warnC := BitVec.ofNat 8 warn, hystC := BitVec.ofNat 4 hyst } }

def execThermalConfig (c : Cmd) (s : State) : Res := .next (runCmd 0x0C02 c s (thermalConfigAct c))

/-- The domains of a die's reset group alone (Table 14-2). -/
def dieDomains (d : Nat) : BitVec 40 :=
  let w := [0, 1, 4, 5, 8, 9, 10, 11, 16, 17, 18, 19, 24, 25, 28]
  let e := [2, 3, 6, 7, 12, 13, 14, 15, 20, 21, 22, 23, 26, 27, 29]
  BitVec.ofNat 40 ((if d = 0 then w else e).foldl (fun n i => n + 2 ^ i) 0)

/-- The domains whose running bit is open: JCLK, which a tester drives, and those of a die that is held. -/
def State.openDomains (s : State) : BitVec 40 :=
  BitVec.ofNat 40 (2 ^ 37) ||| (if s.pwr.west = .held then dieDomains 0 else 0) |||
    if s.pwr.east = .held then dieDomains 1 else 0

/-- CLOCK_STATUS. -/
def clockStatusAct (s : State) : State × Option Ans :=
  let x := s.fresh
  let s := x.2
  let o := s.openDomains
  let mclk : BitVec 40 := if s.pwr.mclkOn then 0 else BitVec.ofNat 40 (2 ^ 36)
  -- OCLK is REF_CLK itself
  let oclk : BitVec 40 := if s.aon.refPresent then 0 else BitVec.ofNat 40 (2 ^ 39)
  let run := (s.pwr.clocks &&& ~~~ o &&& ~~~ mclk &&& ~~~ oclk) ||| (BitVec.ofNat 40 x.1 &&& o &&& ~~~ s.pwr.clkFailed)
  done s (wordsOf run.toNat 2 ++ wordsOf s.pwr.onStandby.toNat 2 ++ wordsOf s.pwr.clkFailed.toNat 2 ++ [word (b2n s.aon.refPresent)])

def execClockStatus (c : Cmd) (s : State) : Res := .next (runCmd 0x0C03 c s clockStatusAct)

/-- AVS_CONFIG: FLOOR to CEILING within the codes 0 to 100. -/
def avsConfigAct (c : Cmd) (s : State) : State × Option Ans :=
  let w := wd c.words 1
  let lo := fld w 1 7
  let hi := fld w 8 7
  if hi < lo ∨ 100 < hi then fail s stBadParam
  else
    done { s with pwr := { s.pwr with
      avsEn := bit w 0, floor := BitVec.ofNat 7 lo, ceiling := BitVec.ofNat 7 hi, margin := BitVec.ofNat 5 (fld w 15 5) } }

def execAvsConfig (c : Cmd) (s : State) : Res := .next (runCmd 0x0C05 c s (avsConfigAct c))

/-- The code that the loop drives toward (R438): what the monitors need plus MARGIN, held to FLOOR–CEILING; CEILING with
AVS_EN clear. -/
def Power.vidTarget (p : Power) (want : Nat) : Nat :=
  if p.avsEn then max p.floor.toNat (min p.ceiling.toNat (want + p.margin.toNat)) else p.ceiling.toNat

/-- One step of the code toward a target. -/
def stepToward (v target : Nat) : Nat := if v < target then v + 1 else if target < v then v - 1 else v

/-- Another 10 µs of the adaptive loop, which runs from the end of stage 4. (DEDUCED: log entry 127.) -/
def execAvsStep (want : Nat) (s : State) : Res :=
  .next
    (if s.started = false ∨ s.aon.hold ≠ [] ∨ s.aon.stage.toNat < 5 ∨ s.aon.stage = 9 then s
    else
      let p := s.pwr
      let v := stepToward p.vid.toNat (p.vidTarget want)
      let exceeds := p.avsEn && decide (p.ceiling.toNat < want + p.margin.toNat)
      let now := s.time.runNs
      let tell := exceeds && (match p.ceilingNs with | some n => decide (n + 1000000000 ≤ now) | none => true)
      let s := { s with pwr := { p with
        vid := BitVec.ofNat 7 v, atCeiling := exceeds, ceilingNs := if tell then some now else p.ceilingNs } }
      if tell then s.raise 0 0x0C02 [word v] else s)

/-! ### Clock branches (R441) -/

/-- DOMAIN_WAKE in the ACTION of its row: a block at level 0, a die at level 1 with BLOCK 0. -/
def domainWake (action : Nat) (c : Cmd) (s : State) (f : Nat → State × Option Ans) : State × Option Ans :=
  let w := wd c.words 0
  let b := fld w 2 7
  if fld w 0 2 ≠ action ∨ (action < 2 ∧ c.level ≠ 0) ∨ (2 ≤ action ∧ (c.level ≠ 1 ∨ b ≠ 0)) then fail s stBadParam
  else f (if c.level = 1 then c.unit.toNat else b)

/-- KEEP_RUNNING: the block's clocks run on without a port. -/
def keepRunningAct (c : Cmd) (s : State) : State × Option Ans :=
  domainWake 0 c s fun b =>
    if s.dieStopped (b / 64) then fail s stBusy
    else done { s with pwr := { s.pwr with keepOn := tins s.pwr.keepOn b (), blocksOn := tins s.pwr.blocksOn b () } }

def execKeepRunning (c : Cmd) (s : State) : Res := .next (runCmd 0x0C04 c s (keepRunningAct c))

/-- ALLOW_STOP: a block with no port stops. -/
def allowStopAct (c : Cmd) (s : State) : State × Option Ans :=
  domainWake 1 c s fun b =>
    if s.dieStopped (b / 64) = true ∨ s.blockUsed b = true then fail s stBusy
    else done { s with pwr := { s.pwr with keepOn := tdel s.pwr.keepOn b, blocksOn := tdel s.pwr.blocksOn b } }

def execAllowStop (c : Cmd) (s : State) : Res := .next (runCmd 0x0C04 c s (allowStopAct c))

/-- A request reached a stopped branch: it runs again. A held die's domains are not wakeable. -/
def State.wake (s : State) (b : ClockBranch) : State :=
  match b with
  | .mclk => { s with pwr := { s.pwr with mclkOn := true } }
  | .block n => if s.dieStopped (n / 64) then s else { s with pwr := { s.pwr with blocksOn := tins s.pwr.blocksOn n () } }

def execClockWake (branch : ClockBranch) (s : State) : Res :=
  onNum (match branch with | .block n => decide (n < 128) | .mclk => true) (if s.pwr.ready then s.wake branch else s)

/-- The port blocks whose branches must run: they hold a port, are kept running, or serve a command. -/
def State.blockNeeded (s : State) (b : Nat) : Bool :=
  s.blockUsed b || thas s.pwr.keepOn b ||
    s.cif.flights.any fun f => decide (f.phase = .running) && decide (f.cmd.level = 4) && decide (f.cmd.unit.toNat = b)

/-- 1 ms without a CMIS transaction: the clocks of the MCLK masters stop, and with them the branches of port blocks that were woken and
are needed no more. -/
def execBranchStop (s : State) : Res :=
  .next { s with pwr := { s.pwr with
    mclkOn := false, blocksOn := s.pwr.blocksOn.filter fun (e : Nat × Unit) => s.blockNeeded e.1 } }

/-! ### A die stops (R34, R35, R296, R445) -/

def State.setDie (s : State) (d : Nat) (v : DieState) : State :=
  { s with pwr := if d = 0 then { s.pwr with west := v } else { s.pwr with east := v } }

def State.die (s : State) (d : Nat) : DieState := if d = 0 then s.pwr.west else s.pwr.east

/-- A port in reset: its configuration as the configuration master holds it, its run state gone; the packets of it that the
other die holds are still its own. -/
def Port.inReset (v : Port) : Port :=
  { v with
      state := .disabled, rate := 0, lastCause := 0, trainFails := 0, failRate := 0, withdrawn := 0, skewHigh := false, lastSpeed := none
      ctThresh := v.ctBase, cleanCount := 0, pause := [], macQueue := [], drainPs := 0, sampleAt := none, laneDelay := [], delayValid := 0, mac := [], parserStat := [], macFrozen := [], parserFrozen := []
      portUsed := 0, shaper := { v.shaper with credit := 0 }, sampleSeq := 0, vOrdinary := 0, vExpress := 0, rx := none, tx := none
      ratePartial := true, rateValid := false, rateRun := [0, 0, 0, 0], rateLatch := [0, 0, 0, 0], frameNo := 0
      received := 0, receivedBytes := 0, openStart := 0, degraded := false, badWin := 0, goodWin := 0, uncorrSeen := false
      alarming := none, alarmReps := 0, alarmUps := 0, remoteDown := [] }

def Queue.inReset (v : Queue) : Queue :=
  { v with
      granary := [], glacier := [], spilling := false, reserveUsed := 0, sharedHeld := 0, grDepth := 0, avg := 0, peak := 0
      spilled := {}, ecnMarked := {}, headF := none, deferred := false, noFit := false, hist := []
      histFrozen := [], shaper := { v.shaper with credit := 0 } }

/-- Its region sequence number goes on: it is never reused (R30). -/
def Region.inReset (v : Region) : Region :=
  { v with
      lfsr := v.seed, refillUsed := 0, headroomUsed := 0, sharedUsed := 0, ptrExpress := 0, ptrOrdinary := 0, ptrRefill := 0
      exhaustBeat := none, sampleLfsr := v.sampleSeed, recount := [], badLinks := [], dispatch := [], rotation := 0, drawn := v.retired }

def Lane.inReset (l : Lane) : Lane :=
  { l.down with
      rxPolInv := false, logical := 0, signal := false, lowRaised := false, ctleWindows := 0
      eq := if l.rxMode = 2 then l.eq else ({} : Lane).eq, eqPrev := if l.rxMode = 2 then l.eq else ({} : Lane).eqPrev
      prbsLock := false, prbsSticky := false, prbsBits := 0, prbsErrs := 0, attempts := 0 }

def Meter.inReset (m : Meter) : Meter :=
  { m with
      tokC := (m.cbs.toNat : Int) * byteUnit, tokE := (m.ebs.toNat : Int) * byteUnit, green := {}, yellow := {}, red := {} }

/-- A mirror copy that came from the running die is dropped with what the stopped die held. (DEDUCED: log entry 177.) -/
def State.loseCopy (s : State) (d : Nat) (k : Pkt) : State :=
  match k.ingress with
  | some p => if k.copy ≠ 0 ∧ p / 512 ≠ d then s.dropInAt k rsPortDown else s
  | none => s

/-- A packet of the stopped die's buffers is lost: the cells it held there no longer count for its ingress port, and a host
frame ends. -/
def State.losePkt (d : Nat) (s : State) (k : Pkt) : State :=
  let t := (s.ingAdd k (-(k.charge.total : Int))).loseCopy d k
  match k.hostTx with
  | some h => t.emit (.txDone h.fn h.pos rsPeerDieDown)
  | none => t

/-- The running die tallies what the stopped die held of its ports' packets as DROPPED with PEER_DIE_DOWN (R296). -/
def State.tallyCrossed (s : State) (p : Nat) : State :=
  let v := s.port p
  let key : TKey :=
    { ingress := p, egress := egressNone, cls := 0, disp := .dropped, reason := BitVec.ofNat 8 rsPeerDieDown, copy := 0 }
  -- the frame in reception was on its way through the stopped die, and its packet is one of these
  let early : Bool := match v.rx with
    | some x =>
      (match x.wait with
        | some w => decide (w.act = 0) && w.pkt.crosses && x.owed.all fun o => decide (o.key.copy ≠ 0)
        | none => false)
    | none => false
  if v.crossPkts = 0 then s
  else
    let s := (s.foldKey (laneRegion p) key v.crossPkts v.crossBytes).modPort p fun w => { w with crossPkts := 0, crossBytes := 0 }
    if early then s.owe p (laneRegion p) key else s

/-- The die that holds a packet in this place. -/
def Place.die (pl : Place) (k : Pkt) : Nat :=
  match pl with
  | .arrival => k.egress.getD 0 / 512
  | .granary q => queuePort q / 512
  | .glacier q => queuePort q / 512
  | .orphan d => d
  | .sending p => p / 512

/-- A packet that the running die holds of a frame that the stopped die was receiving: the frame never ends. An original that has not
begun to leave is dropped by the running die (R296); what has begun, and a mirror copy, ends stomped. Its length is a free value. -/
def State.strandPkt (s : State) (maxFrame : Nat) (e : Place × Pkt) : State :=
  let f := s.fresh
  let k := e.2
  let len := f.1 % 16385
  let drop : State := ((f.2.removePkt e.1 k).recross k len).dropOut { k with len := len, known := true } rsFaultDiscard
  match e.1 with
  | .sending _ => f.2.endBad len maxFrame rsFaultDiscard k.data e
  | _ => if k.copy = 0 then drop else f.2.endBad len maxFrame rsFaultDiscard k.data e

/-- The frames that a stopping die is receiving end for the running die. (DESIGN CHOICE: log entry 189.) -/
def State.strand (s : State) (d : Nat) : State :=
  (s.diePorts d).foldl
    (fun t p =>
      match (t.port p).rx with
      | none => t
      | some x => ((t.family x.pktId).filter fun e => decide (e.1.die e.2 ≠ d)).foldl (State.strandPkt · x.maxFrame) t) s

/-- The packets on their way to a die's buffers, and those of its pipelines. -/
def State.loseMoving (s : State) (d : Nat) : State :=
  let from_ (k : Pkt) : Bool := match k.ingress with | some p => decide (p / 512 = d) | none => false
  let to_ (k : Pkt) : Bool := match k.egress with | some p => decide (p / 512 = d) | none => false
  let gone := s.arrivals.filter to_
  let s := { s with
    arrivals := s.arrivals.filter fun k => !to_ k, parseQ := s.parseQ.filter fun k => !from_ k
    riwenQ := s.riwenQ.filter fun k => !from_ k }
  gone.foldl
    (fun t k =>
      let t := if from_ k then t.uncross k else t.loseCopy d k
      match k.hostTx with
      | some h => t.emit (.txDone h.fn h.pos rsPeerDieDown)
      | none => t) s

/-- The held events of a source that loses them: lost as R357 says, so that the gap and EVENT_OVERFLOW show (OP-6, R9). An
EVENT_OVERFLOW among them passes on what it tells of. -/
def EvHold.loseHeld (h : EvHold) : EvHold :=
  let told (r : EvRec) : BitVec 32 × BitVec 32 :=
    if r.code = evOverflow then (wd r.payload 0, wd r.payload 1) else (1, r.seq)
  match h.held with
  | [] => h
  | r :: _ => { h with held := [], lost := h.held.foldl (fun n x => n + (told x).1) h.lost, firstLost := (told r).2 }

/-- Everything of one die returns to reset, its configuration kept. (DEDUCED: log entry 128.) -/
def State.dieReset (s : State) (d : Nat) : State :=
  let mine (r : Nat) : Bool := decide (regionDie r = d)
  let onPort (p : Nat) : Bool := decide (p / 512 = d)
  { s with
      ports := s.ports.map fun (e : Nat × Port) => if onPort e.1 then (e.1, e.2.inReset) else e
      queues := (s.queues.map fun (e : Nat × Queue) => if mine (queueRegion e.1) then (e.1, e.2.inReset) else e).filter
        fun (e : Nat × Queue) => decide (e.2 ≠ {})
      lanes := (s.lanes.map fun (e : Nat × Lane) => if onPort e.1 then (e.1, e.2.inReset) else e).filter
        fun (e : Nat × Lane) => decide (e.2 ≠ {})
      regions := (s.regions.map fun (e : Nat × Region) => if mine e.1 then (e.1, e.2.inReset) else e).filter
        fun (e : Nat × Region) => decide (e.2 ≠ {})
      -- a die that has lost its glacier uses it no more until the next device reset (R386)
      glaciers := if (s.glacier d).failed then tins s.glaciers d { failed := true } else tdel s.glaciers d
      quotas := (s.quotas.map fun (e : Nat × Quota) => if mine (e.1 / 2) then (e.1, { e.2 with used := 0, quotaBeat := none }) else e).filter
        fun (e : Nat × Quota) => decide (e.2 ≠ {})
      meters := (s.meters.map fun (e : Nat × Meter) => if mine (e.1 / 65536) then (e.1, e.2.inReset) else e).filter
        fun (e : Nat × Meter) => decide (e.2 ≠ {})
      tbl := { s.tbl with copies := s.tbl.copies.filter fun (e : Nat × CopyState) => !mine e.1 }
      tally := { s.tally with
        banks := s.tally.banks.filter fun (e : Nat × Bank) => !mine e.1
        westGone := s.tally.westGone || decide (d = 0), eastGone := s.tally.eastGone || decide (d = 1) }
      cif := { s.cif with holds := s.cif.holds.map fun (e : Nat × EvHold) =>
        if 1 ≤ e.1 / 32 ∧ mine (e.1 / 32 - 1) = true then (e.1, e.2.loseHeld) else e }
      stw := { s.stw with
        engines := s.stw.engines.map fun (e : Nat × Steward) =>
          if e.1 ≠ 0 ∧ mine (e.1 - 1) = true then (e.1, { e.2.restart with state := .reset, tasks := [] })
          else e }
      err := { s.err with fences := s.err.fences.filter fun (e : Nat × Fence) => decide (e.1 / 16 ≠ d) }
      pwr := { s.pwr with
        rxStop := s.pwr.rxStop.filter fun (e : Nat × Nat) => decide (e.1 / 4 ≠ d)
        blocksOn := s.pwr.blocksOn.filter fun (e : Nat × Unit) => decide (e.1 / 64 ≠ d) } }

/-- The die is put in reset: what it held is lost, commands in its stewards' hands end, and the running die forwards alone. -/
def State.stopDie (s : State) (d : Nat) : State :=
  let s := ((s.strand d).setDie d .held).loseMoving d
  let s := s.endAimed d
  let held := (s.queues.filter fun (e : Nat × Queue) => regionDie (queueRegion e.1) = d).flatMap fun (e : Nat × Queue) =>
    e.2.granary ++ e.2.glacier
  let held := held ++ (s.glacier d).orphans
  let sent := (s.ports.filter fun (e : Nat × Port) => e.1 / 512 = d).filterMap fun (e : Nat × Port) => e.2.tx.map (·.pkt)
  let s := (s.logCut d).dieReset d
  let s := (held ++ sent).foldl (State.losePkt d) s
  let s := (s.diePorts (1 - d)).foldl State.tallyCrossed s
  let s := s.reborrow
  (s.raise 0 0x0C01 [word d, 0]).protectAll

/-- A patch of a region steward of the die is in progress. -/
def State.patchesDie (s : State) (d : Nat) : Bool :=
  match s.stw.patch with
  | some p => decide (regionDie p.region = d)
  | none => false

/-- HOLD: a die that is held already stays so. (DEDUCED: log entry 125.) -/
def dieHoldAct (c : Cmd) (s : State) : State × Option Ans :=
  domainWake 2 c s fun d =>
    if s.die (1 - d) ≠ .running ∨ s.die d = .restarting ∨ s.patchesDie d = true then fail s stBusy
    else if s.die d = .held then done s
    else done (s.stopDie d)

def execDieHold (c : Cmd) (s : State) : Res := .next (runCmd 0x0C04 c s (dieHoldAct c))

/-- RELEASE: the restart begins; the die's table copies are rebuilt from the other die's. -/
def dieReleaseAct (c : Cmd) (s : State) : State × Option Ans :=
  domainWake 3 c s fun d =>
    if s.die d ≠ .held then fail s stNotFound
    else
      let s := s.setDie d .restarting
      let s := (s.borrow (2 * d) none).borrow (2 * d + 1) none
      done (s.raise 0 0x0C01 [word d, 1])

def execDieRelease (c : Cmd) (s : State) : Res := .next (runCmd 0x0C04 c s (dieReleaseAct c))

/-- A region steward's engine runs on an image. -/
def State.runEngine (s : State) (e : Nat) (i : Image) : State :=
  s.setEngine e { s.engine e with state := .running, image := i }

/-- The end of a rebuild that no detection began: HIT set for the region, its lookups on its own copy (R175). -/
def State.copyRebuilt (s : State) (r : Nat) : State :=
  let set : Ent → Ent := fun e => { e with hit := e.hit ||| BitVec.ofNat 4 (2 ^ r) }
  let em := s.tbl.em
  let t := { s with tbl := { s.tbl with em :=
    { locs := em.locs.map fun (e : Nat × Ent) => (e.1, set e.2), stash := em.stash.map fun (e : Nat × Ent) => (e.1, set e.2) } } }
  if (s.copyOf r).rebuilding.isSome then t.setCopy r { s.copyOf r with borrowFrom := none, rebuilding := none, badWords := [] } else t

/-- The die's ports return to WAIT_SIGNAL, or to what their configuration says; the packets of them that the other die still holds
count for XOFF (R199). -/
def State.portBack (s : State) (p : Nat) : State :=
  let v := s.port p
  let st : LaneState := if v.adminUp then .waitSignal else if s.prbsOn p then .test else .disabled
  (s.modPort p fun w => { w with state := st }).xoffAll p

/-- A chiplet whose calibration failed; which detector and kind its UNIT_FAILED names is open.
(DESIGN CHOICE: log entry 124.) -/
def State.chipletFailed (s : State) (i : Nat) : State :=
  let x := s.fresh
  let y := x.2.fresh
  let t := y.2
  { t with pwr := { t.pwr with failedChiplets := tins t.pwr.failedChiplets i () } }.raise 0 0x0903 [word x.1, word i, word y.1]

/-- A chiplet's calibration ends (Table 14-4, stage 7). -/
def State.calibrated (s : State) (i : Nat) (ok : Bool) : State :=
  if ok then { s with pwr := { s.pwr with failedChiplets := tdel s.pwr.failedChiplets i } } else s.chipletFailed i

/-- The die-to-die channels that do not train are retired; with fewer than 26 left in a direction the link is down (R389). -/
def State.d2dTrained (s : State) (channels : List Bool) : State :=
  let ok (i : Nat) : Bool := channels.getD i false
  let s := s.d2dHealthy ((List.range 64).filter ok)
  let s := ((List.range 64).filter fun i => !ok i).foldl State.retire s
  [0, 1].foldl (fun t d => t.linkTest d) s

/-- The stacks, the link and the chiplets of a released die have trained, as in stages 5 to 7 of Table 14-4. -/
def State.dieTrained (s : State) (r : DieTraining) : State :=
  let s := (List.range 2).foldl (fun t i => if r.glacier.getD i false then t else t.stackFail (2 * r.die + i)) s
  (List.range 4).foldl (fun t i => t.calibrated (4 * r.die + i) (r.chiplets.getD i false)) (s.d2dTrained r.channels)

/-- The blocks of a die that hold a port, or that DOMAIN_WAKE keeps running, have their clocks again. -/
def State.blocksBack (s : State) (d : Nat) : State :=
  { s with pwr := { s.pwr with
    blocksOn := ((List.range 64).map fun i => 64 * d + i).foldl (fun t b => if s.blockNeeded b then tins t b () else t) s.pwr.blocksOn } }

/-- A released die is back: its stewards load the region image of the running slot (the images in force, after a host boot),
what has trained works, and its ports come back. An image that fails its checks ends the restart, and the die stays held.
(DEDUCED: log entry 129.) -/
def execDieReady (trained : DieTraining) (s : State) : Res :=
  let die := trained.die
  onNum (decide (die < 2))
    (if s.die die ≠ .restarting then s
    else
      let bs := s.slotRegion s.aon.running
      if s.aon.hostBoot = false ∧ imageCause 1 s.aon.level bs ≠ 0 then
        (s.setDie die .held).raise 0 0x0C01 [word die, 3]
      else
        let load (t : State) (e : Nat) : State := t.runEngine e (if s.aon.hostBoot then (t.engine e).image else imageOf bs)
        let s := load (load (s.setDie die .running) (1 + 2 * die)) (2 + 2 * die)
        let s := (s.copyRebuilt (2 * die)).copyRebuilt (2 * die + 1)
        let s := (s.dieTrained trained).blocksBack die
        let s := { s with tally := { s.tally with
          westBack := s.tally.westBack || decide (die = 0), eastBack := s.tally.eastBack || decide (die = 1) } }
        let s := ((s.diePorts die).foldl State.portBack s).reborrow
        s.raise 0 0x0C01 [word die, 2])

end Sys2Proof.Machine
end

