-- ==== Sys2Proof/Machine/Startup.lean ====
section
/-!
DEFINITION. VAUX and the start-up sequence (R437, R446 to R448, Tables 14-4, 14-5): each stage's end takes the sequencer to the
next stage, to the other slot, to the host, or to BOOT_FAILED.
-/

namespace Sys2Proof.Machine

/-! ### VAUX -/

/-- A slot whose write or erase the loss of power cut: it has no valid commit word. -/
def Slot.afterPowerLoss (x : Slot) : Slot :=
  match x.state with
  | .erasing => { x with state := .invalid }
  | .writing => { x with state := .invalid }
  | _ => x

/-- Power-on reset of the whole device; the flash keeps its contents, and writes that were going on are cut. -/
def State.powerOff (s : State) : State :=
  { State.reset with
      pending := s.pending, free := s.fresh.2.free, out := s.out, nextPkt := s.nextPkt
      aon := { slotA := s.aon.slotA.afterPowerLoss, slotB := s.aon.slotB.afterPowerLoss, journal := s.cutWrites.journal
               logUsed := s.cutWrites.logUsed, reserved := s.aon.reserved } }

/-- The counter's value in a POWER_ON record (R284). -/
def Aon.savedSeconds (a : Aon) : Nat :=
  match a.newest recPowerOn with
  | some r => natOfBytes (r.payload.take 5)
  | none => 0

/-- VAUX rises: stage 0 ends with the journal scanned and the counter resumed, and the sequencer waits for the core rails.
(DEDUCED: log entry 122.) -/
def execVauxApplied (s : State) : Res :=
  .next
    (if s.aon.vaux then s
    else
      let t := s.powerOff
      let a : Aon := { t.aon with vaux := true, stage := 1, flashAbsent := Config.flashAbsent }
      let a : Aon := { a with powerOn := if Config.flashAbsent then 0 else BitVec.ofNat 40 a.savedSeconds, level := a.journalLevel }
      { t with aon := a.appendOwn recResetCause [0] })

/-- VAUX falls below 1.62 V: every group resets at once and nothing is written to the journal. -/
def execVauxRemoved (s : State) : Res := .next s.powerOff

/-! ### The stages -/

/-- A stage's work ends only in that stage, and not while a reset condition holds the device. -/
def State.inStage (s : State) (n : Nat) : Bool := s.aon.vaux && s.aon.hold.isEmpty && decide (s.aon.stage.toNat = n)

def State.toStage (s : State) (n : Nat) : State := { s with aon := { s.aon with stage := BitVec.ofNat 4 n } }

/-- BOOT_FAILED: only the always-on group runs. -/
def State.bootFailed (s : State) (cause : Nat) : State :=
  { s with aon := { s.aon with stage := 9, bootFault := BitVec.ofNat 4 cause } }

def execCoreRailsInRange (bootMode : BitVec 2) (s : State) : Res :=
  .next (if s.inStage 1 then { s with aon := { s.aon with stage := 2, bootMode := bootMode } } else s)

/-- The domains of the groups that a list marks. -/
def groupsBits (l : List Bool) (is : Bool) : BitVec 40 :=
  (List.range 17).foldl (fun b g => if l.getD g false = is then b ||| groupBits g else b) 0

/-- Every PLL group runs on its primary or its standby PLL; with both unlocked the boot fails. -/
def execStageClocksDone (primary standby : List Bool) (s : State) : Res :=
  .next
    (if s.inStage 2 then
      let either := (List.range 17).map fun g => primary.getD g false || standby.getD g false
      let onStandby := (List.range 17).map fun g => standby.getD g false && !primary.getD g false
      let t := { s with pwr := { s.pwr with
        clocks := groupsBits either true ||| BitVec.ofNat 40 (2 ^ 39), onStandby := groupsBits onStandby true
        clkFailed := groupsBits either false } }
      if either.all id then
        { t with aon := { t.aon with stage := 3, waitHost := decide (s.aon.bootMode = 2) } }
      else t.bootFailed 1
    else s)

/-- A slot has failed: the other slot is next, then the host, or BOOT_FAILED where BOOT_MODE has no host boot (R447). -/
def State.slotFailed (s : State) (cause : Nat) : State :=
  let a := s.aon
  let b := a.running
  let tried := if a.tried.contains b then a.tried else a.tried ++ [b]
  let s := { s with aon := { a with tried := tried, failCause := if a.failCause = 0 then cause else a.failCause, stage := 3 } }
  if tried.length < 2 then s
  else if a.bootMode = 0 then s.bootFailed 2
  else { s with aon := { s.aon with waitHost := true } }

/-- The slot that stage 3 tries: the selected one, or the other one after it has failed. -/
def Aon.candidate (a : Aon) : Bool := if a.tried.contains a.selected then !a.selected else a.selected

/-- The central image of the slot in turn is checked and loaded. -/
def State.tryCentral (s : State) : State :=
  let b := s.aon.candidate
  let bs := s.slotCentral b
  let cause := imageCause 0 s.aon.level bs
  let s := { s with aon := { s.aon with running := b, fallback := decide (b ≠ s.aon.selected) } }
  if cause = 0 then (s.runEngine 0 (imageOf bs)).toStage 4 else s.slotFailed cause

/-- Stage 3 ends with a slot's central image loaded, or, once both slots have failed, with the wait for the host or
BOOT_FAILED. -/
def execStageCentralDone (s : State) : Res :=
  .next
    (if s.inStage 3 = false ∨ s.aon.waitHost = true then s
    else
      let t := s.tryCentral
      if t.inStage 3 = true ∧ t.aon.waitHost = false then t.tryCentral else t)

/-- The bytes of an image in BAR2: as many as its header says, up to the room it has. -/
def Aon.bar2Image (a : Aon) (offset room : Nat) : List Byte :=
  let get (i : Nat) : Byte := tget a.bar2 (offset + i) 0
  let n := natOfBytes ((List.range 4).map fun i => get (20 + i))
  (List.range (min n room)).map get

/-- The two images of a host boot (R448). -/
def Aon.hostCentral (a : Aon) : List Byte := a.bar2Image 0 0x80000
def Aon.hostRegion (a : Aon) : List Byte := a.bar2Image 0x80000 0x7FF00

/-- A host boot is refused for a cause, with the image that failed: BOOT_STATE 3, and the wait for another GO (R448). -/
def State.hostRefused (s : State) (cause : Nat) (region : Bool) : State :=
  { s with aon := { s.aon with
    stage := 3, waitHost := true, hostBoot := false, bootFault := 3, bootState := 3, bootCause := BitVec.ofNat 4 cause, bootRegion := region } }

/-- A write of GO: the images are checked; a failure waits for another GO. (DEDUCED: log entry 123.) -/
def execGo (value : Word) (s : State) : Res :=
  .next
    (let a := s.aon
    if value.getLsbD 0 = false ∨ s.cif.pcieUp = false ∨ a.hold ≠ [] ∨
        ¬(a.stage = 9 ∨ (a.stage = 3 ∧ a.waitHost = true)) then s
    else
      let k := imageCause 0 a.level a.hostCentral
      let r := imageCause 1 a.level a.hostRegion
      if k ≠ 0 then s.hostRefused k false
      else if r ≠ 0 then s.hostRefused r true
      else
        let t := { s with aon := { a with
          stage := 4, waitHost := false, fallback := false, running := false, hostBoot := true, bootFault := 0, bootState := 2
          bootCause := 0, bootRegion := false } }
        t.runEngine 0 (imageOf a.hostCentral))

/-- The region image is checked once and loaded into the four region stewards; a failure fails the slot, or refuses the host's image,
which BAR2 still holds. -/
def execStageRegionsDone (s : State) : Res :=
  .next
    (if s.inStage 4 then
      let bs := if s.aon.hostBoot then s.aon.hostRegion else s.slotRegion s.aon.running
      let cause := imageCause 1 s.aon.level bs
      if cause = 0 then ([1, 2, 3, 4].foldl (fun t e => t.runEngine e (imageOf bs)) s).toStage 5
      else if s.aon.hostBoot then s.hostRefused cause true
      else s.slotFailed cause
    else s)

/-- The stacks that do not train fail (R386). -/
def execStageGlacierDone (trained : List Bool) (s : State) : Res :=
  .next
    (if s.inStage 5 then
      ((List.range 4).foldl (fun t i => if trained.getD i false then t else t.stackFail i) s).toStage 6
    else s)

/-- The channels that do not train are retired; with fewer than 26 in a direction the link is down (R389). -/
def execStageD2dDone (channels : List Bool) (s : State) : Res :=
  .next
    (if s.inStage 6 then
      (s.d2dTrained channels).toStage 7
    else s)

/-- Calibration ends: the device is READY, a START record is written, and a boot from the other slot is reported. -/
def execStageLanesDone (chiplets : List Bool) (s : State) : Res :=
  .next
    (if s.inStage 7 then
      let t := (List.range 8).foldl (fun t i => t.calibrated i (chiplets.getD i false)) s
      let x := t.fresh
      let t := x.2.toStage 8
      let a := t.aon
      let bytes := [BitVec.ofNat 8 (b2n a.running), BitVec.ofNat 8 (b2n a.fallback), BitVec.ofNat 8 a.bootMode.toNat] ++
        bytesOf (x.1 % 2501) 4
      let t := { t with aon := t.aon.appendOwn recStart bytes }
      let t := { t with aon := { t.aon with bar2 := [] }, pwr := { t.pwr with ready := true, mclkOn := true } }
      if a.fallback then t.raise 0 0x0D02 [word (b2n a.running), word a.failCause] else t
    else s)

end Sys2Proof.Machine
end

