-- ==== Sys2Proof/Machine/Parish.lean ====
section
/-!
DEFINITION. The parish (chapter 13): roles and wiring (R407 to R409), what every Riwen frame meets on arrival (R411, R427), bell
frames and path delay (R414, R415), membership (R416), commands, replies and data through the tree (R417 to R419, R433), link
alarms, watches and protection groups (R430 to R432).
-/

namespace Sys2Proof.Machine

def roleWorker : BitVec 3 := 4

/-! ### A Riwen frame arrives -/

/-- The oldest received Riwen frame of a port that its row has not taken. -/
def takeWaiting (p : Nat) : List Pkt → Option (Pkt × List Pkt)
  | [] => none
  | k :: ks => if k.ingress = some p then some (k, ks) else (takeWaiting p ks).map fun x => (x.1, k :: x.2)

/-- A summary or event frame of the port that waits since its end is delivered to the host under its row's code; a row with none takes
nothing (R411, R433). Every other frame was consumed at its end. (DEDUCED: log entry 145.) -/
def State.consumeRiwen (s : State) (p : Nat) (code : Option Nat) : State :=
  match code, takeWaiting p s.riwenQ with
  | some n, some (k, rest) =>
    (({ s with riwenQ := rest }).toHost k n rsNone).sampleCopy k { len := k.len } (fcsBytes k.data)
  | _, _ => s

/-- The highest MANAGER_GEN seen; a manager that sees a higher one is deposed (R427). -/
def State.seeGen (s : State) (g : BitVec 16) : State :=
  if g.toNat ≤ s.parish.managerGen.toNat then s
  else
    let t := { s with parish := { s.parish with managerGen := g } }
    if s.parish.role = roleManager ∧ s.parish.deposed = false then
      ({ t with parish := { t.parish with deposed := true } }).raise 0 0x0B01 [1, 1, word g.toNat]
    else t

/-- A frame is one of this parish and well formed. -/
def State.riwenOk (s : State) (h : Riwen) : Bool := decide (h.version = 1) && decide (h.parishId = s.parish.parishId) && h.lenOk

/-- What every Riwen row does: nothing where the device or the port takes no Riwen frames; otherwise the frame is rejected or heard. -/
def onRiwen (h : Riwen) (s : State) (f : State → State) : Res :=
  onNum (decide (h.port < 1024))
    (if s.hasRole = false ∨ (s.port h.port).riwenEn = false then s
    else if s.riwenOk h then f (s.seeGen h.managerGen)
    else s.rejectRiwen)

/-- What the row of a summary or event frame does: the waiting frame is taken first. -/
def onHostRiwen (h : Riwen) (s : State) (code : BitVec 8) (f : State → State) : Res :=
  let host := if s.riwenOk h = true ∧ s.parish.role = roleManager then some code.toNat else none
  onRiwen h (if s.hasRole && (s.port h.port).riwenEn then s.consumeRiwen h.port host else s) f

/-- The frame is addressed to this device. -/
def State.forMe (s : State) (h : Riwen) : Bool := h.all || decide (h.dstDevice = s.parish.device)

/-- A relay above depth 4, which passes frames between its upstream and its child ports. -/
def State.relays (s : State) : Bool := decide (s.parish.role = roleRelay) && decide (s.parish.depth.toNat < 4)

/-- The node sends activation frames: a manager that is not deposed, or a relay. -/
def State.leads (s : State) : Bool := (decide (s.parish.role = roleManager) && !s.parish.deposed) || s.relays

/-- An activation frame on every child port. -/
def State.sendDown (s : State) (typ : Nat) (payload : List Byte) : State :=
  if s.leads then s.children.foldl (fun t p => t.sendRiwen p typ riwenAll payload) s else s

/-- A queued frame that goes on up the tree as its sender wrote it. (DEDUCED: log entry 143.) -/
def State.passUp (s : State) (h : Riwen) (typ : Nat) (payload : List Byte) : State :=
  match s.upstream with
  | some p => s.passRiwen p typ h.srcDevice.toNat 0 h.managerGen payload
  | none => s

/-! ### Configuration and status (Tables 13-7 to 13-10) -/

/-- RELAY_CONFIG: the upstream or child port that a role of another port already fills. -/
def State.roleTaken (s : State) (p role : Nat) : Bool :=
  (tkeys s.ports).any fun x => decide (x ≠ p) && decide ((s.port x).portRole.toNat = role)

/-- What a port's new role forgets: the bitmaps of a child, the bell frames and delays of an upstream. -/
def State.forgetRole (s : State) (p old new : Nat) : State :=
  if old = new then s
  else
    let a := s.parish
    let a : Parish := { a with children := a.children.filter fun e => decide (e.1 / 4 ≠ p) }
    let a : Parish := if old = 1 ∨ new = 1 then { a with primGen := none, delays := [], reqOut := none } else a
    let a : Parish := if old = 2 ∨ new = 2 then { a with altGen := none, delaysAlt := [], reqOutAlt := none } else a
    { s with parish := a }

def relayConfigAct (c : Cmd) (s : State) : State × Option Ans :=
  let w := wd c.words 1
  let p := fld (wd c.words 0) 0 10
  let role := fld w 1 3
  let hops := fld w 5 2
  if s.levelHere c = false then fail s stBadParam
  else
    match s.port? p with
    | none => fail s stNotFound
    | some v =>
      if (bit w 0 = true ∧ v.maxFrame.toNat < 4134) ∨ 4 ≤ role ∨ hops = 0 ∨ hops = 3 ∨
          (s.parish.role = roleManager ∧ (role = 1 ∨ role = 2)) then fail s stBadParam
      else if (role = 1 ∨ role = 2) ∧ s.roleTaken p role = true then fail s stExists
      else if role = 3 ∧ 128 ≤ (s.childPorts.filter fun x => x ≠ p).length then fail s stTableFull
      else
        let t := s.setPort p
          { v with riwenEn := bit w 0, portRole := BitVec.ofNat 3 role, alarmEn := bit w 4, alarmHops := BitVec.ofNat 2 hops
                   riwenQueue := BitVec.ofNat 4 (fld w 7 4) }
        done (t.forgetRole p v.portRole.toNat role)

def execRelayConfig (c : Cmd) (s : State) : Res := .next (runCmd 0x0B03 c s (relayConfigAct c))

/-- The set bits of a bitmap segment. -/
def popCount (b : BitVec 4096) : Nat := ((List.range 4096).filter fun i => b.getLsbD i).length

/-- The member or subtree count. -/
def State.members (s : State) : Nat := ((List.range 4).map fun g => popCount (s.subtree g)).foldl (· + ·) 0

/-- The mean path delay of the active upstream in units of 1/2 ns; none without a sample (R415). -/
def State.pathDelay (s : State) : Option Int :=
  let l := if s.activeUp = 2 then s.parish.delaysAlt else s.parish.delays
  if l.isEmpty then none else some (l.foldl (· + ·) 0 / (l.length : Int))

/-- DEPTH_EXCEEDED: a node at depth 4, with child ports or without (R408). (DEDUCED: log entry 148.) -/
def State.tooDeep (s : State) : Bool := decide (4 ≤ s.parish.depth.toNat)

def parishStatusAct (c : Cmd) (s : State) : State × Option Ans :=
  if s.levelHere c = false then fail s stBadParam
  else
    let a := s.parish
    done s
      ([pack [(0, a.role.toNat), (3, s.activeUp), (5, b2n a.deposed), (6, b2n s.tooDeep), (7, a.depth.toNat), (10, a.device.toNat)],
        word a.managerGen.toNat, word (s.members % 2 ^ 15), BitVec.ofInt 32 (s.pathDelay.getD 0 / 2 ^ 17),
        pack [(0, a.actEpoch.toNat), (16, a.actPhase.toNat)]] ++ wordsOf a.actBeat.toNat 2 ++ [a.rejects])

def execParishStatus (c : Cmd) (s : State) : Res := .next (runCmd 0x0B02 c s (parishStatusAct c))

def parishMemberReadAct (c : Cmd) (s : State) : State × Option Ans :=
  if s.levelHere c = false then fail s stBadParam
  else done s (bytesToWords (bitmapBytes (s.subtree (fld (wd c.words 0) 0 2))) 128)

def execParishMemberRead (c : Cmd) (s : State) : Res := .next (runCmd 0x0B05 c s (parishMemberReadAct c))

/-! ### Bell frames (R272, R273, R414) -/

/-- The offset of a bell frame in units of 2^-48 ns: receive stamp minus sender's time, path delay and ASYM_ADJ. -/
def State.bellOffset (s : State) (b : BellPayload) (rxNs rxFrac : Nat) (half : Int) : Int :=
  let asym := signed 16 s.time.asymAdj.toNat
  ((rxNs : Int) - (b.txNs : Int) - asym) * nsUnit - half * 2 ^ 31 + ((rxFrac : Int) - (b.txFrac.toNat : Int)) * 2 ^ 32

/-- A bell frame of the active upstream disciplines the time base of a device whose source it is. -/
def State.bellTime (s : State) (h : Riwen) (b : BellPayload) (rxNs : Nat) : State :=
  if s.time.source ≠ 2 then s
  else
    let s := { s with time := { s.time with upHoldover := b.holdover } }
    let rate := b.beats.toNat
    let s :=
      if (rate ≠ s.time.beats.toNat ∨ h.bellGen ≠ s.time.bellGen) ∧ 10 ≤ rate ∧ rate ≤ 10000 ∧ 1000000000 % rate = 0 then
        { s with time := { s.time with pendingB := some (BitVec.ofNat 14 rate, some h.bellGen) } }
      else s
    let s := match s.time.master with
      | some m => if m ≠ b.masterId ∧ s.time.state = TimeState.locked then s.setTimeState TimeState.holdover 5 else s
      | none => s
    let s := { s with time := { s.time with master := some b.masterId } }
    match s.pathDelay with
    | none => s
    | some half =>
      let x := s.fresh
      x.2.measure (x.2.bellOffset b rxNs (x.1 % 65536) half)

/-- A bell frame is noted: its MANAGER_GEN for the port it came on, its beat where it carries the highest one (R409, R428).
(DEDUCED: log entry 146.) -/
def State.noteBell (s : State) (h : Riwen) : State :=
  let a := s.parish
  let a : Parish :=
    if (s.port h.port).portRole = 1 then { a with primGen := some h.managerGen, primBeat := s.time.beatRun }
    else { a with altGen := some h.managerGen, altBeat := s.time.beatRun }
  let a : Parish :=
    if h.managerGen = a.managerGen then { a with lastBell := s.time.beat, lastRun := s.time.beatRun, bellSeen := true, lost := false, helloSeen := false } else a
  { s with parish := a }

/-- What a node copies from its active upstream's bell frames (R408, R414). -/
def State.copyBell (s : State) (h : Riwen) (b : BellPayload) : State :=
  let d := min 7 (h.depth.toNat + 1)
  { s with parish := { s.parish with
    depth := BitVec.ofNat 3 d, bellMgr := h.managerGen, masterId := b.masterId, actEpoch := b.actEpoch, actPhase := BitVec.ofNat 2 b.actPhase.toNat
    actBeat := b.actBeat } }

/-! ### Path delay (R415) -/

/-- A delay request is answered at once, with T3 written as the response leaves; the fraction of its receive stamp is what the stamp says.
(DESIGN CHOICE: log entry 147.) -/
def execDelayReq (h : Riwen) (seq : BitVec 16) (rxNs : Nat) (s : State) : Res :=
  onRiwen h s fun s =>
    if (s.port h.port).portRole ≠ 3 ∨ ¬(s.parish.role = roleManager ∨ s.relays = true) then s
    else
      let x := s.fresh
      x.2.sendMac h.port
        (.delayResp h.srcDevice.toNat (netBytes seq.toNat 2 ++ stampBytes (rxNs, BitVec.ofNat 16 x.1)))

/-- One sample, kept with the seven before it: the stamps and twice the delay are in units of 2^-16 ns. -/
def delaySample (l : List Int) (t1 t2 t3 t4 : Nat) : List Int :=
  let v := ((t4 : Int) - (t1 : Int)) - ((t3 : Int) - (t2 : Int))
  (l ++ [v]).drop (l.length + 1 - 8)

/-- A response within 1 beat of its request yields a sample for the port's upstream. -/
def execDelayResp (h : Riwen) (seq : BitVec 16) (t1 t2 t3 t4 : Nat) (s : State) : Res :=
  onRiwen h s fun s =>
    let a := s.parish
    let fits (o : Option (BitVec 16 × Nat)) : Bool :=
      match o with
      | some (n, b) => decide (n = seq) && decide (s.time.beatRun ≤ b + 1) && decide ((t4 - t1) * s.time.beats.toNat ≤ 10 ^ 9 * 65536)
      | none => false
    if (s.port h.port).portRole = 1 ∧ fits a.reqOut = true then
      { s with parish := { a with delays := delaySample a.delays t1 t2 t3 t4, reqOut := none } }
    else if (s.port h.port).portRole = 2 ∧ fits a.reqOutAlt = true then
      { s with parish := { a with delaysAlt := delaySample a.delaysAlt t1 t2 t3 t4, reqOutAlt := none } }
    else s

/-! ### Membership (R416) -/

def execHello (h : Riwen) (segment : Nat) (managerSeen : Bool) (bitmap : List Byte) (s : State) : Res :=
  onRiwen h s fun s =>
    if s.children.contains h.port = false ∨ 4 ≤ segment then s
    else
      { s with parish := { s.parish with
        children := tins s.parish.children (h.port * 4 + segment) { bits := bitmapOf bitmap, beat := s.time.beatRun }
        helloSeen := s.parish.helloSeen || managerSeen } }.relayCheck

/-! ### Commands and replies (R417 to R419) -/

/-- The sender of an in-band command: the manager only with device 0 and the highest MANAGER_GEN.
(DEDUCED: log entry 144.) -/
def State.inbandSender (s : State) (h : Riwen) : Sender :=
  if h.srcDevice ≠ 0 then .inband h.srcDevice.toNat
  else if h.managerGen = s.parish.managerGen then .inband 0 else .inband 16384

/-- A command for this device: a duplicate of a completed one gets the stored reply, one of a command in flight is ignored;
another command under the tag of one in flight is accepted, and fails (R345). -/
def State.inbandCommand (s : State) (h : Riwen) (bytes : List Byte) : State :=
  let c := parseCmd (s.inbandSender h) bytes
  match s.parish.stored.find? fun e => decide (e.1 = c) with
  | some (_, r) =>
    match s.upstream with
    | some p => s.queueRiwen p rwReply 0 (replyBytes r)
    | none => s
  | none => if s.cif.flights.any fun f => decide (f.cmd = c) then s else s.accept c

/-- A command for another device: down its child port, or NOT_FOUND where no child port holds it. -/
def State.passCommand (s : State) (h : Riwen) (bytes : List Byte) : State :=
  match if s.relays then s.childFor h.dstDevice.toNat else none with
  | some p => s.passRiwen p rwCommand h.srcDevice.toNat h.dstDevice.toNat h.managerGen bytes
  | none =>
    match s.upstream with
    | some p => s.queueRiwen p rwReply 0 (replyBytes (s.mkReply (parseCmd (s.inbandSender h) bytes) stNotFound [] false))
    | none => s

def execRiwenCommand (h : Riwen) (bytes : List Byte) (s : State) : Res :=
  onRiwen h s fun s =>
    if h.all then
      let t := if s.relays then
          s.children.foldl (fun t p => t.passRiwen p rwCommand h.srcDevice.toNat riwenAll h.managerGen bytes) s
        else s
      t.inbandCommand h bytes
    else if s.forMe h then s.inbandCommand h bytes
    else s.passCommand h bytes

/-- The reply that the bytes of a REPLY frame hold, with the TAG and QUEUE that the sender of the command used. -/
def replyOf (c : Cmd) (bs : List Byte) : Reply :=
  { src := c.src, queue := c.queue, tag := c.tag, opcode := c.opcode, status := byteAt bs 0, late := (byteAt bs 1).getLsbD 0
    crc := crcRequired c.src || c.checkCrc, beat := word (natAt bs 8 4), echo := word (natAt bs 12 4)
    words := bytesToWords (bs.drop 16) (min (natAt bs 6 2) 1020) }

/-- The trailer of a reply's bytes is right. -/
def replyCrcOk (bs : List Byte) : Bool :=
  let n := 16 + 4 * natAt bs 6 2
  decide (natAt bs n 4 = (crc32c (bs.take n)).toNat)

/-- A reply for the manager completes the command that it forwarded under the reply's tag. -/
def State.takeReply (s : State) (bs : List Byte) : State :=
  let tag := natAt bs 4 2 % 4096
  if replyCrcOk bs = false then s
  else
    match s.cif.flights.find? fun f => match f.phase with | .forwarded t _ => decide (t = tag) | _ => false with
    | none => s
    | some f =>
      let r := replyOf f.cmd bs
      if r.status.toNat = stPending then
        if f.cmd.noReply || f.discard then s
        else s.setFlights (modFirst (fun g => decide (g = f)) (fun g => { g with pending := some r }) s.cif.flights)
      else s.conclude f r

def execRiwenReply (h : Riwen) (bytes : List Byte) (s : State) : Res :=
  onRiwen h s fun s =>
    if s.parish.role = roleManager then s.takeReply bytes
    else if s.relays then s.passUp h rwReply bytes
    else s

/-- 1 ms without a reply: the manager sends the command again; after the eighth time it gives up. -/
def execCommandResend (ftag : Nat) (s : State) : Res :=
  onNum (decide (ftag < 4096))
    (match s.cif.flights.find? fun f => match f.phase with | .forwarded t _ => decide (t = ftag) | _ => false with
      | none => s
      | some f =>
        match f.phase with
        | .forwarded _ n =>
          if 8 ≤ n then s.conclude f (s.mkReply f.cmd stAborted [] false)
          else
            let t := s.setFlights
              (modFirst (fun g => decide (g = f)) (fun g => { g with phase := .forwarded ftag (n + 1) }) s.cif.flights)
            match t.childFor f.cmd.device.toNat with
            | some p => t.sendCommand f.cmd ftag p
            | none => t
        | _ => s)

/-! ### Upward data (R433) -/

def execRiwenEvent (h : Riwen) (bytes : List Byte) (s : State) : Res :=
  onHostRiwen h s s.parish.eventCode fun s => if s.relays then s.passUp h rwEvent bytes else s

def execTallySummary (h : Riwen) (bytes : List Byte) (s : State) : Res :=
  onHostRiwen h s s.parish.summaryCode fun s => if s.relays then s.passUp h rwTallySummary bytes else s

/-! ### Link alarms (R430, R431) -/

/-- The ports with a valid watch on an origin. -/
def State.watching (s : State) (dev origin : Nat) : List Nat :=
  ((s.parish.watches.filter fun (e : Nat × Watch) =>
    e.2.valid && decide (e.2.dev.toNat = dev) && decide (e.2.port.toNat = origin)).map fun e => e.1 / 4).eraseDups

/-- The ports that an origin has made REMOTE_DOWN. -/
def State.markedBy (s : State) (dev origin : Nat) : List Nat :=
  (tkeys s.ports).filter fun p => (s.port p).remoteDown.any fun o => decide (o.1 = dev) && decide (o.2.1 = origin)

/-- The ports that an alarm of an origin acts on: an up alarm on those that the origin has marked; a down alarm on those that watch it, and
on those marked, whose marks it keeps up whatever their watch slots name by now. -/
def State.alarmed (s : State) (dev origin : Nat) (down : Bool) : List Nat :=
  let marked := s.markedBy dev origin
  if down then marked ++ (s.watching dev origin).filter fun p => !marked.contains p else marked

/-- A port's REMOTE_DOWN by one origin is set, kept up or cleared. (DEDUCED: log entry 153.) -/
def State.markRemote (s : State) (dev origin : Nat) (down : Bool) (p : Nat) : State :=
  match s.port? p with
  | none => s
  | some v =>
    let is (o : Nat × Nat × Nat) : Bool := decide (o.1 = dev) && decide (o.2.1 = origin)
    let had := v.remoteDown.any is
    let rest := v.remoteDown.filter fun o => !is o
    let t := s.setPort p { v with remoteDown := if down then rest ++ [(dev, origin, s.time.beatRun)] else rest }
    if had = down then t else t.raise 0 0x0B04 [word p, word dev, word origin, word (b2n down)] (some p)

def execLinkAlarm (h : Riwen) (originDev originPort : Nat) (down : Bool) (cause : Nat) (seq : BitVec 16) (hops : Nat)
    (s : State) : Res :=
  onRiwen h s fun s =>
    let s := ((s.alarmed originDev originPort down).foldl (fun t p => t.markRemote originDev originPort down p) s).protectAll
    let key := (originDev, originPort, seq, down)
    if hops ≤ 1 ∨ s.parish.alarmCache.contains key = true then s
    else
      let l := s.parish.alarmCache ++ [key]
      let s := { s with parish := { s.parish with alarmCache := l.drop (l.length - 1024) } }
      s.sendAlarm originDev originPort down cause seq.toNat (some (hops - 1)) (some h.port)

/-- The alarm of a port is due again: STATE 1 while the fault lasts, and STATE 0 three times once the port has been UP for 1 s. -/
def execAlarmRepeat (port : Nat) (s : State) : Res :=
  onNum (decide (port < 1024))
    (match s.port? port with
      | none => s
      | some v =>
        match v.alarming with
        | none => s
        | some cause =>
          if v.state = .up then
            let n := v.alarmUps + 1
            let t := s.setPort port (if n < 3 then { v with alarmUps := n } else { v with alarming := none, alarmReps := 0, alarmUps := 0 })
            t.sendAlarm s.parish.device.toNat port false cause v.alarmSeq.toNat none none
          else
            (s.setPort port { v with alarmReps := v.alarmReps + 1, alarmUps := 0 }).sendAlarm s.parish.device.toNat port true cause
              v.alarmSeq.toNat none none)

/-- 3,072 beats have passed without a down alarm for an origin. -/
def execRemoteDownExpiry (port : Nat) (s : State) : Res :=
  onNum (decide (port < 1024))
    ((((s.port port).remoteDown.filter fun o => decide (o.2.2 + 3072 ≤ s.time.beatRun)).foldl
      (fun t o => t.markRemote o.1 o.2.1 false port) s).protectAll)

/-! ### Watches and protection groups (R431, R432) -/

/-- PROTECT_GROUP_CONFIG with KIND 1. -/
def watchSlotWriteAct (c : Cmd) (s : State) : State × Option Ans :=
  let w0 := wd c.words 0
  let w := wd c.words 1
  if s.levelHere c = false ∨ bit w0 0 = false ∨ fld w 25 7 ≠ 0 ∨ wd c.words 2 ≠ 0 then fail s stBadParam
  else
    let v : Watch := { dev := BitVec.ofNat 14 (fld w 0 14), port := BitVec.ofNat 10 (fld w 14 10), valid := bit w 24 }
    done { s with parish := { s.parish with watches := tset s.parish.watches (fld w0 1 10 * 4 + fld w0 11 2) {} v } }

def execWatchSlotWrite (c : Cmd) (s : State) : Res := .next (runCmd 0x0B04 c s (watchSlotWriteAct c))

/-- A group's cause to use PROTECT. -/
def State.mustSwitch (s : State) (v : Protect) : Bool :=
  v.enable && s.outOfUse v.working.toNat && s.isUp v.protect.toNat && !s.remoteDown v.protect.toNat

/-- PROTECT_GROUP_CONFIG with KIND 0: the group is written, and stands where its causes put it. -/
def protectGroupWriteAct (c : Cmd) (s : State) : State × Option Ans :=
  let w0 := wd c.words 0
  let w := wd c.words 1
  let w2 := wd c.words 2
  let g := fld w0 1 10
  let a := fld w 0 10
  let b := fld w 10 10
  if s.levelHere c = false ∨ bit w0 0 = true ∨ 256 ≤ g ∨ fld w0 11 2 ≠ 0 ∨ fld w 22 10 ≠ 0 ∨ a = b ∨ 3600 < w2.toNat then
    fail s stBadParam
  else if (s.parish.groups.any fun (e : Nat × Protect) => decide (e.1 ≠ g) && decide (e.2.working.toNat = a)) = true then
    fail s stExists
  else
    let old := tget s.parish.groups g {}
    let v : Protect :=
      { working := BitVec.ofNat 10 a, protect := BitVec.ofNat 10 b, enable := bit w 20, revertive := bit w 21
        wtr := BitVec.ofNat 12 w2.toNat }
    let on := s.mustSwitch v
    let t := s.setGroup g { v with switched := on }
    done (if on = old.switched then t else t.raise 0 0x0B05 [word g, word (b2n on)])

def execProtectGroupWrite (c : Cmd) (s : State) : Res := .next (runCmd 0x0B04 c s (protectGroupWriteAct c))

/-- WTR seconds have passed since every cause of a revertive group cleared. -/
def execWtrExpiry (group : Nat) (s : State) : Res :=
  onNum (decide (group < 256))
    (match tget? s.parish.groups group with
      | none => s
      | some v =>
        if v.enable = true ∧ v.switched = true ∧ v.revertive = true ∧ s.outOfUse v.working.toNat = false then
          (s.setGroup group { v with switched := false }).raise 0 0x0B05 [word group, 0]
        else s)

end Sys2Proof.Machine
end

