-- ==== Sys2Proof/Machine/Activation.lean ====
section
/-!
DEFINITION. Activation of epochs: ACTIVATE and EPOCH_ABANDON at level 0 (R354, R355), the two-phase activation of a parish (R420
to R426), and the loss and failover of its manager (R427 to R429).
-/

namespace Sys2Proof.Machine

/-! ### Level 0 (R354, R355) -/

def activateAct (c : Cmd) (s : State) : State × Option Ans :=
  let e := fld (wd c.words 0) 0 16
  let b := wd64 c.words 1 % 2 ^ 48
  if c.level ≠ 0 ∨ e = 0 then fail s stBadParam
  else
    match s.epoch? e with
    | none => fail s stNotFound
    | some x =>
      if x.state ≠ .staging then fail s stBusy
      else if s.time.tooLate b = true ∧ c.strictTime = true then fail s stTimePassed
      else
        let late := s.time.tooLate b
        let thaw := if late then s.time.firstFree else b
        let t := s.setEpoch e fun x => { x with state := .scheduled, thaw := BitVec.ofNat 48 thaw }
        (t, some { words := wordsOf thaw 2, late := late })

def execActivate (c : Cmd) (s : State) : Res := .next (runCmd 0x0107 c s (activateAct c))

/-- EPOCH_ABANDON at level 0. -/
def abandonHere (e : Nat) (s : State) : State × Option Ans :=
  match s.epoch? e with
  | none => fail s stNotFound
  | some x =>
    match x.state with
    | .idle => fail s stNotFound
    | .cleaning => fail s stTimePassed
    | .staging => done (s.abandonEpoch e 0)
    | .scheduled =>
      if x.prepared then fail s stBusy
      else if s.time.tooLate x.thaw.toNat then fail s stTimePassed
      else done (s.abandonEpoch e 0)

/-! ### The vote of one participant (R421) -/

/-- The segment and the bitmap that hold the device alone. -/
def State.ownBit (s : State) : Nat × BitVec 4096 :=
  (s.parish.device.toNat / 4096, BitVec.ofNat 4096 (2 ^ (s.parish.device.toNat % 4096)))

/-- Adds bits to a segment of votes. -/
def addBits (t : Tab (BitVec 4096)) (seg : Nat) (b : BitVec 4096) : Tab (BitVec 4096) := tins t seg (tget t seg 0 ||| b)

/-- The device votes on an epoch: true when it is prepared, and then it holds the epoch SCHEDULED with THAW_BEAT 0. -/
def State.castVote (s : State) (e : Nat) (gen : BitVec 8) : State × Bool :=
  let free := match s.epoch? e with | some x => decide (x.state = .staging) | none => true
  let timed := decide (s.time.state = .locked) || decide (s.time.state = .holdover)
  if free && timed && decide (gen = s.time.bellGen) then
    let hold (x : Epoch) : Epoch := { x with state := .scheduled, thaw := 0, prepared := true, committed := none }
    match s.epoch? e with
    | some _ => (s.setEpoch e hold, true)
    | none =>
      let x : Epoch := hold { epoch := BitVec.ofNat 16 e, state := .idle, slot := none }
      ({ s with cif := { s.cif with epochs := s.cif.epochs ++ [x] } }, true)
  else (s, false)

/-- A participant meets a PREPARE, which its epoch and deadline name, for the first time: it votes once, a relay passes it down and
gathers its subtree's votes. (DEDUCED: log entry 197.) -/
def State.meetPrepare (s : State) (e : Nat) (deadline : BitVec 48) (gen : BitVec 8) : State :=
  if s.parish.voted = some (BitVec.ofNat 16 e, deadline) ∨ s.parish.role = roleManager then s
  else
    let x := s.castVote e gen
    let s := { x.1 with parish := { x.1.parish with
      seenPrepare := some (BitVec.ofNat 16 e), voted := some (BitVec.ofNat 16 e, deadline) } }
    let own := s.ownBit
    if s.parish.role = roleRelay then
      let a : Activation :=
        { epoch := BitVec.ofNat 16 e, beat := 0, deadline := deadline
          prepared := if x.2 then [own] else [], refused := if x.2 then [] else [own] }
      ((s.sendDown rwPrepare (netBytes e 2 ++ netBytes deadline.toNat 6)).setAct (some a)).relayCheck
    else s.sendUp rwVote (votePayload e own.1 (!x.2) own.2)

/-! ### The decision at the manager (R423, R424) -/

def Activation.missing (a : Activation) (seg : Nat) : BitVec 4096 := tget a.participants seg 0 &&& ~~~ tget a.prepared seg 0

def segSum (f : Nat → BitVec 4096) : Nat := ((List.range 4).map fun g => popCount (f g)).foldl (· + ·) 0

def Activation.notPrepared (a : Activation) : Nat := segSum a.missing

def Activation.refusals (a : Activation) : Nat := segSum fun g => tget a.participants g 0 &&& tget a.refused g 0

/-- The lowest device number not prepared; 0 where every participant is. -/
def Activation.lowest (a : Activation) : Nat :=
  (((List.range 4).findSome? fun g => ((List.range 4096).find? fun i => (a.missing g).getLsbD i).map fun i => 4096 * g + i)).getD 0

/-- The activation ends: ACTIVATE's final result, ACTIVATION_RESULT, and what the bell frames carry from now on. -/
def State.endActivation (s : State) (a : Activation) (status : Nat) (late : Bool) (outcome what thaw phase : Nat) : State :=
  let p := s.parish
  let t := { s with parish := { p with
    act := none, actEpoch := a.epoch, actPhase := BitVec.ofNat 2 phase, actBeat := BitVec.ofNat 48 thaw, seenPrepare := none
    decided := a.epoch :: p.decided.filter (· ≠ a.epoch) } }
  let t := match a.cmd with
    | some c => t.answer c { status := status, words := [word a.notPrepared, word a.refusals, word a.lowest] ++ wordsOf thaw 2, late := late }
    | none => t
  t.raise 0 0x0B03 ([word a.epoch.toNat, word outcome] ++ wordsOf what 2 ++ [word a.notPrepared, word a.lowest])

/-- An abort: ABORT to all, and the manager's own epoch abandoned. -/
def State.abortAct (s : State) (a : Activation) (status cause : Nat) : State :=
  let t := s.sendDown rwAbort (netBytes a.epoch.toNat 2 ++ [BitVec.ofNat 8 cause])
  let mine : Bool := match t.epoch? a.epoch.toNat with | some x => decide (x.state = .staging) || x.prepared | none => false
  let t := if mine then t.abandonEpoch a.epoch.toNat 2 else t
  t.endActivation a status false 1 cause 0 3

/-- The epoch waits for the thaw of a commit with another beat than `b`. -/
def Epoch.moves (x : Epoch) (b : Nat) : Bool :=
  decide (x.state = .scheduled) && match x.committed with | some c => decide (c.toNat ≠ b) | none => false

/-- A participant takes the thaw beat of an epoch that it holds prepared (R425). A commit with the same beat changes nothing; one
with another beat, which only the standby can meet (R424), moves the thaw, so that all thaw at one beat (R39). -/
def State.takeCommit (s : State) (e b : Nat) : State :=
  match s.epoch? e with
  | none => s
  | some x =>
    if x.prepared = false ∧ x.moves b = false then s
    else if s.time.tooLate b then
      let f := s.time.firstFree
      (s.setEpoch e fun x => { x with thaw := BitVec.ofNat 48 f, prepared := false, committed := some (BitVec.ofNat 48 b) }).raise 0
        0x0B03 ([word e, 2] ++ wordsOf f 2 ++ [0, 0])
    else s.setEpoch e fun x => { x with thaw := BitVec.ofNat 48 b, prepared := false, committed := some (BitVec.ofNat 48 b) }

/-- The thaw beat of a commit sent now. -/
def State.thawFor (s : State) (a : Activation) : Nat := max a.beat.toNat (s.time.beat.toNat + 8)

def commitPayload (e b : Nat) : List Byte := netBytes e 2 ++ netBytes b 6

/-- COMMIT to all in this beat, or an abort where STRICT_TIME forbids the later thaw. -/
def State.commitAll (s : State) (a : Activation) : State :=
  let b := s.thawFor a
  let late := decide (a.beat.toNat < b)
  if late = true ∧ a.strict = true then s.abortAct a stTimePassed 4
  else
    ((s.sendDown rwCommit (commitPayload a.epoch.toNat b)).takeCommit a.epoch.toNat b).endActivation a stOk late 0 b b 2

/-- The child port toward the standby, where one is configured and a participant. -/
def State.standbyPort (s : State) (a : Activation) : Option Nat :=
  let d := s.parish.standby.toNat
  if d ≠ 0 ∧ (tget a.participants (d / 4096) 0).getLsbD (d % 4096) = true then s.childFor d else none

/-- The commit begins: with the standby first, where the manager is not deposed and still sends activation frames (R427). -/
def State.commitAct (s : State) (a : Activation) : State :=
  if a.strict = true ∧ a.beat.toNat < s.thawFor a then s.abortAct a stTimePassed 4
  else
    match if s.leads then s.standbyPort a else none with
    | some p =>
      (s.sendRiwen p rwCommit s.parish.standby.toNat (commitPayload a.epoch.toNat (s.thawFor a))).setAct
        (some { a with awaitAck := true })
    | none => s.commitAll a

/-- The manager decides as soon as the votes allow it. -/
def State.decideAct (s : State) : State :=
  match s.parish.act with
  | none => s
  | some a =>
    if s.parish.role ≠ roleManager ∨ a.awaitAck = true then s
    else if a.notPrepared = 0 then s.commitAct a
    else if a.refusals ≠ 0 then s.abortAct a stBusy 1
    else s

/-- ACTIVATE at level 6 (R420). (DEDUCED: log entry 149.) -/
def parishActivateAct (c : Cmd) (s : State) : State × Option Ans :=
  let e := fld (wd c.words 0) 0 16
  let b := wd64 c.words 1 % 2 ^ 48
  if c.level ≠ 6 ∨ s.levelHere c = false ∨ e = 0 then fail s stBadParam
  else
    let taken := match s.epoch? e with | some x => decide (x.state ≠ .staging) | none => false
    if s.parish.act.isSome = true ∨ taken = true ∨ s.parish.deposed = true then fail s stBusy
    else
      let deadline := BitVec.ofNat 48 (s.time.beat.toNat + s.parish.voteBeats.toNat)
      let members := (List.range 4).map fun g => (g, s.subtree g)
      let s := { s with parish := { s.parish with
        actEpoch := BitVec.ofNat 16 e, actPhase := 1, actBeat := deadline
        decided := s.parish.decided.filter (· ≠ BitVec.ofNat 16 e), abortNext := none } }
      let s := s.sendDown rwPrepare (netBytes e 2 ++ netBytes deadline.toNat 6)
      let s := if c.noReply then s
        else s.setFlights (modFirst (fun f => decide (f.cmd = c) && !f.rejected)
          (fun f => if f.discard then f else { f with pending := some (s.mkReply c stPending [] false) }) s.cif.flights)
      let x := s.castVote e s.time.bellGen
      let own := s.ownBit
      let a : Activation :=
        { epoch := BitVec.ofNat 16 e, beat := BitVec.ofNat 48 b, deadline := deadline, strict := c.strictTime, participants := members
          prepared := if x.2 then [own] else [], refused := if x.2 then [] else [own], cmd := some c }
      ((x.1.setAct (some a)).decideAct, none)

def execParishActivate (c : Cmd) (s : State) : Res := .next (runCmd 0x0107 c s (parishActivateAct c))

/-- EPOCH_ABANDON at level 6: before the decision it aborts the activation. -/
def abandonParish (e : Nat) (s : State) : State × Option Ans :=
  let past := if s.parish.decided.contains (BitVec.ofNat 16 e) then stTimePassed else stNotFound
  match s.parish.act with
  | some a =>
    if a.epoch.toNat ≠ e then fail s past
    else if a.awaitAck then fail s stTimePassed
    else done (s.abortAct a stAborted 2)
  | none => fail s past

def epochAbandonAct (c : Cmd) (s : State) : State × Option Ans :=
  let e := fld (wd c.words 0) 0 16
  if e = 0 ∨ s.levelHere c = false then fail s stBadParam
  else if c.level = 6 then abandonParish e s else abandonHere e s

def execEpochAbandon (c : Cmd) (s : State) : Res := .next (runCmd 0x0108 c s (epochAbandonAct c))

/-! ### Activation frames -/

/-- A PREPARE for one device, a commit or an abort goes on down the tree: to all, or to the child port that holds its destination. -/
def State.passDown (s : State) (h : Riwen) (typ : Nat) (payload : List Byte) : State :=
  if s.relays = false then s
  else if h.all then s.sendDown typ payload
  else if s.forMe h then s
  else
    match s.childFor h.dstDevice.toNat with
    | some p => s.sendRiwen p typ h.dstDevice.toNat payload
    | none => s

def execPrepare (h : Riwen) (epoch : BitVec 16) (deadline : BitVec 48) (s : State) : Res :=
  onRiwen h s fun s =>
    if s.forMe h then s.meetPrepare epoch.toNat deadline h.bellGen
    else s.passDown h rwPrepare (netBytes epoch.toNat 2 ++ netBytes deadline.toNat 6)

/-- Votes of a child port's subtree: merged, then decided at the manager or passed up by a relay. -/
def execVote (h : Riwen) (epoch : BitVec 16) (segment : Nat) (refused : Bool) (bitmap : List Byte) (s : State) : Res :=
  onRiwen h s fun s =>
    match s.parish.act with
    | none => s
    | some a =>
      if a.epoch ≠ epoch ∨ 4 ≤ segment ∨ s.children.contains h.port = false then s
      else
        let b := bitmapOf bitmap
        let a : Activation :=
          if refused then { a with refused := addBits a.refused segment b } else { a with prepared := addBits a.prepared segment b }
        ((s.setAct (some a)).decideAct).relayCheck

/-- The decision on an epoch has arrived: nothing is gathered for it any more. -/
def State.decided (s : State) (e : BitVec 16) : State :=
  let p := s.parish
  let p : Parish := if p.seenPrepare = some e then { p with seenPrepare := none } else p
  match p.act with
  | some a => { s with parish := if a.epoch = e ∧ p.role ≠ roleManager then { p with act := none } else p }
  | none => { s with parish := p }

/-- The standby resends the commit that it acknowledged with the beat that all have (R429). -/
def State.keepAcked (s : State) (e : BitVec 16) (b : BitVec 48) : State :=
  match s.parish.ackedCommit with
  | some (f, _) => if f = e then { s with parish := { s.parish with ackedCommit := some (e, b) } } else s
  | none => s

/-- COMMIT (R425); the standby acknowledges the one that is addressed to it (R424). (DEDUCED: log entry 150.) -/
def execCommit (h : Riwen) (epoch : BitVec 16) (thaw : BitVec 48) (s : State) : Res :=
  onRiwen h s fun s =>
    let s := s.passDown h rwCommit (commitPayload epoch.toNat thaw.toNat)
    if s.forMe h = false ∨ s.parish.role = roleManager then s
    else
      let s := (s.takeCommit epoch.toNat thaw.toNat).decided epoch
      if s.parish.role ≠ roleStandby then s
      else if h.all then s.keepAcked epoch thaw
      else ({ s with parish := { s.parish with ackedCommit := some (epoch, thaw) } }).sendUp rwCommitAck (netBytes epoch.toNat 2)

/-- COMMIT_ACK: a relay passes it up; at the manager it lets the commit go to all. -/
def execCommitAck (h : Riwen) (epoch : BitVec 16) (s : State) : Res :=
  onRiwen h s fun s =>
    if s.relays then s.sendUp rwCommitAck (netBytes epoch.toNat 2)
    else
      match s.parish.act with
      | some a => if a.awaitAck = true ∧ a.epoch = epoch then s.commitAll a else s
      | none => s

/-- The device is the standby, and has acknowledged a commit of the epoch that all may not have been sent (R424). -/
def State.ackedAlone (s : State) (e : BitVec 16) : Bool :=
  decide (s.parish.role = roleStandby) && match s.parish.ackedCommit with | some (f, _) => decide (f = e) | none => false

/-- An epoch in STAGING, or held prepared, is abandoned by a parish abort (R426); so is the one of the standby that has the commit
alone, where STRICT_TIME forbids the commit to all (R424). -/
def State.takeAbort (s : State) (e : BitVec 16) : State :=
  let alone := s.ackedAlone e
  let s := s.decided e
  let s := if alone then { s with parish := { s.parish with ackedCommit := none } } else s
  match s.epoch? e.toNat with
  | some x =>
    if x.state = .staging ∨ x.prepared = true ∨ (alone = true ∧ x.committed.isSome = true) then s.abandonEpoch e.toNat 2 else s
  | none => s

def execAbort (h : Riwen) (epoch : BitVec 16) (cause : Nat) (s : State) : Res :=
  onRiwen h s fun s =>
    let s := s.passDown h rwAbort (netBytes epoch.toNat 2 ++ [BitVec.ofNat 8 cause])
    if s.forMe h = false ∨ s.parish.role = roleManager then s else s.takeAbort epoch

/-- A relay's deadline: the manager's, less 50 µs for each level below depth 4. -/
def execVoteDeadline (s : State) : Res :=
  .next
    (match s.parish.act with
      | some a =>
        if s.parish.role = roleRelay ∧ a.sent = false ∧
            s.time.boundary a.deadline.toNat ≤ s.time.ns + (4 - s.parish.depth.toNat) * 50000 then s.relayVotes a
        else s
      | none => s)

/-- The deadline's boundary with a participant absent from both bitmaps. -/
def execActivationDeadline (s : State) : Res :=
  .next
    (match s.parish.act with
      | some a =>
        if s.parish.role = roleManager ∧ a.awaitAck = false ∧ a.deadline.toNat ≤ s.time.beat.toNat then s.abortAct a stNotFound 0
        else s
      | none => s)

/-- 200 µs without COMMIT_ACK. -/
def execStandbyAckTimeout (s : State) : Res :=
  .next
    (match s.parish.act with
      | some a => if s.parish.role = roleManager ∧ a.awaitAck = true then s.commitAll a else s
      | none => s)

/-! ### Bell frames: what they decide -/

/-- What the ACT fields of a bell frame tell a participant (R421, R425, R426). -/
def State.bellAct (s : State) (h : Riwen) (b : BellPayload) : State :=
  match b.actPhase.toNat with
  | 1 => s.meetPrepare b.actEpoch.toNat b.actBeat h.bellGen
  | 2 => ((s.takeCommit b.actEpoch.toNat b.actBeat.toNat).decided b.actEpoch).keepAcked b.actEpoch b.actBeat
  | 3 => s.takeAbort b.actEpoch
  | _ => s

/-- BELL: heard on the upstream ports, followed on the active one. -/
def execBell (h : Riwen) (b : BellPayload) (rxNs : Nat) (s : State) : Res :=
  onRiwen h s fun s =>
    let r := (s.port h.port).portRole
    if (r ≠ 1 ∧ r ≠ 2) ∨ s.hasUpstream = false then s
    else
      let s := s.noteBell h
      if s.upstream ≠ some h.port then s else (((s.copyBell h b).bellTime h b rxNs).bellAct h b)

/-! ### Manager loss and failover (R427 to R429) -/

/-- No bell frame with the highest MANAGER_GEN for MGR_TIMEOUT beats at a worker or a relay. (DEDUCED: log entry 152.) -/
def execManagerLost (s : State) : Res :=
  .next
    (let a := s.parish
    if (a.role = roleWorker ∨ a.role = roleRelay) ∧ a.lost = false ∧
        a.lastRun + a.mgrTimeout.toNat ≤ s.time.beatRun then
      ({ s with parish := { a with lost := true } }).raise 0 0x0B02 (wordsOf a.lastBell.toNat 2)
    else s)

/-- The device becomes the manager: number 0, one MANAGER_GEN on, its own identity. -/
def State.becomeManager (s : State) : State :=
  { s with parish := { s.parish with
    role := roleManager, device := 0, managerGen := s.parish.managerGen + 1, masterId := Config.deviceUid, deposed := false
    depth := 0, actPhase := 0, act := none, decided := [], abortNext := none } }

/-- Bell frames carry the abort until the next PREPARE. -/
def State.toAbortPhase (s : State) (e : BitVec 16) : State :=
  { s with parish := { s.parish with actEpoch := e, actPhase := 3, actBeat := 0 } }

/-- The standby takes over, and ends what the lost manager left open: a commit that it acknowledged, and a PREPARE without a decision.
Its bell frames carry the commit first. (DESIGN CHOICE: log entry 198.) -/
def execStandbyTakeover (s : State) : Res :=
  .next
    (let a := s.parish
    if a.role ≠ roleStandby ∨ a.helloSeen = true ∨ s.time.beatRun < a.lastRun + a.mgrTimeout.toNat + 1 then s
    else
      let t := s.becomeManager
      let t := t.raise 0 0x0B01 [2, 1, word t.parish.managerGen.toNat]
      let ahead := match a.ackedCommit with
        | some (_, b) => decide (s.time.beat.toNat < b.toNat)
        | none => false
      let t := match a.ackedCommit with
        | some (e, b) =>
          if ahead then
            ({ t with parish := { t.parish with actEpoch := e, actPhase := 2, actBeat := b, decided := [e] } }).sendDown rwCommit
              (commitPayload e.toNat b.toNat)
          else t
        | none => t
      let t := match a.seenPrepare with
        | some p =>
          let u := (t.takeAbort p).sendDown rwAbort (netBytes p.toNat 2 ++ [3])
          if ahead then { u with parish := { u.parish with abortNext := some p } } else u.toAbortPhase p
        | none => t
      t.sendBells)

/-! ### PARISH_CONFIG (R407, R421, R427) -/

/-- A change of role gives up what the old role held: its activation, the epochs held prepared, and what it knew of the tree. -/
def State.leaveRole (s : State) : State :=
  let s := match s.parish.act with
    | some a => if s.parish.role = roleManager then s.abortAct a stAborted 2 else s
    | none => s
  let s := s.cif.epochs.foldl (fun t (x : Epoch) => if x.prepared then t.abandonEpoch x.epoch.toNat 2 else t) s
  { s with parish := { s.parish with
    act := none, seenPrepare := none, voted := none, decided := [], abortNext := none, ackedCommit := none, actEpoch := 0, actPhase := 0, actBeat := 0, children := [], stored := []
    primGen := none, altGen := none, delays := [], delaysAlt := [], reqOut := none, reqOutAlt := none, depth := 0, deposed := false
    lastBell := s.time.beat, lastRun := s.time.beatRun, bellSeen := false, lost := false, helloSeen := false } }

/-- DEDUCED: log entry 151. -/
def parishConfigAct (c : Cmd) (s : State) : State × Option Ans :=
  let w1 := wd c.words 1
  let w2 := wd c.words 2
  let w3 := wd c.words 3
  let role := fld w1 0 3
  let dev := fld w1 3 14
  let pid := fld w2 0 16
  let vote := fld w2 16 7
  let timeout := fld w2 23 3
  if s.levelHere c = false ∨ 5 ≤ role ∨ (role ≤ 1 ∧ dev ≠ 0) ∨ (2 ≤ role ∧ dev = 0) ∨ (role ≠ 0 ∧ pid = 0) ∨ vote < 2 ∨ 64 < vote ∨
      timeout < 2 ∨ 5 < timeout then fail s stBadParam
  else if 2 ≤ role ∧ s.time.source ≠ 2 then fail s stBusy
  else
    let old := s.parish
    let s := if old.role.toNat = role ∧ old.deposed = false then s else s.leaveRole
    let a : Parish :=
      { s.parish with
          role := BitVec.ofNat 3 role, device := BitVec.ofNat 14 dev, parishId := BitVec.ofNat 16 pid
          voteBeats := BitVec.ofNat 7 vote, mgrTimeout := BitVec.ofNat 3 timeout, standby := BitVec.ofNat 14 (fld w3 0 14)
          eventCode := BitVec.ofNat 8 (fld w3 14 8), summaryCode := BitVec.ofNat 8 (fld w3 22 8) }
    let t := { s with parish := a }
    done (if role = 1 ∧ (old.role.toNat ≠ 1 ∨ old.deposed = true) then t.becomeManager else t)

def execParishConfig (c : Cmd) (s : State) : Res := .next (runCmd 0x0B01 c s (parishConfigAct c))

end Sys2Proof.Machine
end

