-- ==== Sys2Proof/Machine/Errors.lean ====
section
/-!
DEFINITION. The commands of group 0x09 and the injections (R400, R401, R404 to R406).
-/

namespace Sys2Proof.Machine

/-- The members that a detector's INSTANCE encodes (Table 12-1); 0 for a reserved code. -/
def detCount (det : Nat) : Nat :=
  match det with
  | 0x01 => 256 | 0x02 => 256 | 0x03 => 4 | 0x04 => 4 | 0x05 => 4 | 0x06 => 16 | 0x07 => 32 | 0x08 => 4
  | 0x09 => 4 | 0x0A => 4 | 0x0B => 4 | 0x0C => 4 | 0x0D => 64 | 0x0E => 8448 | 0x0F => 2 | 0x10 => 1024
  | 0x11 => 1024 | 0x12 => 5 | 0x13 => 5 | 0x14 => 8 | 0x15 => 1024 | 0x16 => 40 | 0x17 => 29 | 0x18 => 29
  | 0x19 => 8 | 0x1A => 3
  | _ => 0

def detOf (c : Cmd) : Nat := fld (wd c.words 0) 0 8
def instOf (c : Cmd) : Nat := fld (wd c.words 0) 8 20

/-! ### Injection -/

/-- Detectors of ECC words whose PATTERN is XORed into data and check bits (R400). -/
def eccDetectors : List Nat := [0x01, 0x02, 0x03, 0x04, 0x05, 0x06, 0x08, 0x09, 0x0A, 0x0B, 0x1A]

/-- PATTERN and CHECK_PATTERN are what the detector asks for (R400, Table 12-7). -/
def patternOk (det addr pat chk : Nat) : Bool :=
  if det = dCsUncorrected then
    decide (pat ≠ 0 ∨ chk ≠ 0) &&
      match addr / 2 ^ 16 % 4 with
      | 3 => false
      | 2 => decide (pat < 2 ^ 16)
      | _ => true
  else if eccDetectors.contains det then decide (chk < 256) && decide (pat ≠ 0 ∨ chk ≠ 0)
  else
    decide (chk = 0) &&
      (if det = dFecDegrade then decide (1 ≤ pat) && decide (pat ≤ 64)
      else if det = dThermalWarn ∨ det = dThermalTrip ∨ det = dVoltage then decide (pat ≠ 0)
      else if det = dDoubleFree then decide (pat < 2)
      else decide (pat = 0))

/-- DURATION is what the detector asks for. -/
def durationOk (det dur : Nat) : Bool :=
  if det = dLinkFault ∨ det = dClockLoss ∨ det = dGlacierStack then decide (1 ≤ dur) && decide (dur ≤ 1000000000)
  else decide (dur = 0)

/-- An injection that would reset the device needs ALLOW_RESET (R401). -/
def resets (det inst : Nat) : Bool :=
  decide (det = dThermalTrip) || decide (det = dVoltage) || (decide (det = dClockLoss) && decide (inst = 39))

/-- Blocks of a pool (Table 6-5). -/
def poolBlocks (pool : Nat) : Nat :=
  match pool with
  | 0 => 8388608
  | 1 => 3145728
  | 2 => 614400
  | _ => 393216

/-- An injection into POOL_DOUBLE_FREE names a block in the wrong state (R392). -/
def State.blockWrong (s : State) (inst addr pat : Nat) : Bool :=
  let held := thas ((s.glacier (inst / 4)).pool (inst % 4)).allocated addr
  if pat = 0 then held else !held

/-- The detectors whose point is checked all the time: a pattern that waits there is met at once.
(DESIGN CHOICE: log entry 196.) -/
def liveDets : List Nat :=
  [dPipeParity, dGlacierStack, dD2dCrc, dD2dWire, dD2dDown, dLinkFault, dClockLoss]

/-- A direction is left with 25 channels: the highest-numbered ones are marked retired (Table 12-1). -/
def State.retireSome (s : State) (dir : Nat) : State :=
  (((List.range 32).map fun i => 32 * dir + i).filter fun c => !thas s.err.retired c).drop 25 |>.foldl State.retire s

/-- The forced loss of signal on a port's lowest lane: the port's link fault. -/
def State.forceLinkFault (s : State) (p : Nat) : State :=
  if s.hasPort p then
    let up := decide ((s.port p).state = .up)
    let t := s.laneLost p false
    if up then (t.portFault p 0).detectLog dLinkFault p p else t
  else s

/-- An injection acts on its point where that is checked all the time (Table 12-1). A PLL whose standby runs already loses nothing more;
a controller that refuses for less than 10 µs does not fail. -/
def State.actLive (s : State) (j : Injection) : State :=
  let ns := j.duration.toNat
  let s := if j.duration = 0 then s else { s with err := { s.err with
    forced := tins s.err.forced (detKey j.det j.inst) (s.time.runPs + ns * 1000) } }
  let t :=
    if j.det = dPipeParity then s.recoverCluster (j.inst / 2) (decide (j.inst % 2 = 1)) true j.place
    else if j.det = dGlacierStack then if 10000 ≤ ns then s.stackFail j.inst else s
    else if j.det = dD2dCrc then s.flitError { channel := j.inst }
    else if j.det = dD2dWire then
      let c := j.inst / 132
      { s with err := { s.err with channels := tins s.err.channels c { flits := 256, failed := 16 } } }.wireTest c (j.inst % 132)
    else if j.det = dD2dDown then (s.retireSome j.inst).linkTest j.inst
    else if j.det = dLinkFault then s.forceLinkFault j.inst
    else if s.pwr.onStandby.getLsbD j.inst then s
    else s.clockLost j.inst
  t.useInjection j.det j.inst j.place

/-- What an injection that is due does by itself: it acts on a point that is checked all the time; one made once is put into the word
that it names; one into a word of a detector of uncorrectable errors alone is corrected where it turns over one bit. The others wait for
the next access. -/
def State.applyInjection (s : State) (j : Injection) : State :=
  if j.det = dGlacierDesc then s
  else if j.corrected then s.endInjection j
  else if liveDets.contains j.det then s.actLive j
  else if j.mode ≠ 1 then s
  else if j.det = dQueueLink then s.spoilLink j.inst j.address j.flips
  else if j.det = dImbalance then s.modPort j.inst fun v => { v with received := v.received + 1 }
  else if j.det = dCsUncorrected then s.strikeStore j j.place
  else if j.det = dDoubleFree then s.strikePool j
  else s

/-- ERR_INJECT in the mode of its row (R400, R401). -/
def errInject (mode : Nat) (c : Cmd) (s : State) : State × Option Ans :=
  let det := detOf c
  let inst := instOf c
  let w1 := wd c.words 1
  let period := (wd c.words 2).toNat
  let addr := (wd c.words 3).toNat
  let dur := (wd c.words 4).toNat
  let pat := wd64 c.words 5
  let chk := fld (wd c.words 7) 0 16
  let mine (j : Injection) : Bool := decide (j.aim = det) && decide (j.inst = inst)
  if fld w1 0 2 ≠ mode ∨ detCount det ≤ inst then fail s stBadParam
  else if mode = 0 then done { s with err := { s.err with injections := s.err.injections.filter fun j => !mine j } }
  else if patternOk det addr pat chk = false ∨ durationOk det dur = false then fail s stBadParam
  else if (if mode = 2 then decide (1 ≤ period) && decide (period ≤ 1000000) else decide (period = 0)) = false then
    fail s stBadParam
  else if resets det inst = true ∧ bit w1 2 = false then fail s stBadParam
  else if det = dDoubleFree ∧ poolBlocks (inst % 4) ≤ addr then fail s stBadParam
  else if s.err.injections.any mine then fail s stBusy
  else if 64 ≤ s.err.injections.length then fail s stQueueFull
  else if det = dDoubleFree ∧ s.blockWrong inst addr pat = true then fail s stBusy
  else
    let j : Injection :=
      { det := det, inst := inst, mode := mode, count := fld w1 16 16, period := period, address := wd c.words 3
        duration := wd c.words 4, pattern := BitVec.ofNat 64 pat, check := BitVec.ofNat 16 chk, aim := det, due := decide (mode ≠ 2)
        since := s.time.runPs }
    let t := { s with err := { s.err with injections := s.err.injections ++ [j] } }
    done (if mode = 2 then t else t.applyInjection j)

def errInjectCancelAct (c : Cmd) (s : State) : State × Option Ans := errInject 0 c s

def execErrInjectCancel (c : Cmd) (s : State) : Res := .next (runCmd 0x0902 c s (errInjectCancelAct c))

def errInjectOnceAct (c : Cmd) (s : State) : State × Option Ans := errInject 1 c s

def execErrInjectOnce (c : Cmd) (s : State) : Res := .next (runCmd 0x0902 c s (errInjectOnceAct c))

def errInjectPeriodicAct (c : Cmd) (s : State) : State × Option Ans := errInject 2 c s

def execErrInjectPeriodic (c : Cmd) (s : State) : Res := .next (runCmd 0x0902 c s (errInjectPeriodicAct c))

def errInjectArmedAct (c : Cmd) (s : State) : State × Option Ans := errInject 3 c s

def execErrInjectArmed (c : Cmd) (s : State) : Res := .next (runCmd 0x0902 c s (errInjectArmedAct c))

/-- PERIOD_US has passed: the pattern waits for the next access of the member. -/
def execInjectionPeriod (detector inst : Nat) (s : State) : Res :=
  onNum (decide (inst < detCount detector))
    (match s.err.injections.find? fun j => decide (j.aim = detector) && decide (j.inst = inst) && decide (j.mode = 2) with
      | none => s
      | some j =>
        let next := j.since + j.period * 1000000
        if s.time.runPs < next then s
        else
          let j' := { j with due := true, since := next }
          { s with err := { s.err with
            injections := s.err.injections.map fun (i : Injection) => if i = j then j' else i } }.applyInjection j')

/-! ### Configuration, status and log -/

/-- What a change of the FEC fields from those of `old` does to the ports named: the count of windows begins again, and DEGRADE_ACTION
acts on a port that is DEGRADED (R390, R405). -/
def State.fecChanged (s old : State) (ps : List Nat) : State :=
  ps.foldl
    (fun t p =>
      let same := decide ({ t.detCfg dFecDegrade p with eventEn := true } = { old.detCfg dFecDegrade p with eventEn := true })
      let u := if same then t else t.modPort p fun v => { v with badWin := 0, goodWin := 0, fecHit := false }
      u.degradeAct p) s

/-- ERR_CONFIG (R405, Table 12-8): a field that the detector does not use holds its reset value.
(DEDUCED: log entry 142.) -/
def errConfigAct (c : Cmd) (s : State) : State × Option Ans :=
  let det := detOf c
  let inst := instOf c
  let w1 := wd c.words 1
  let w2 := wd c.words 2
  let w3 := wd c.words 3
  let n : DetCfg :=
    { eventEn := bit w1 0, failLimit := w1.extractLsb' 1 4, action := w2.extractLsb' 0 2, windowLog2 := w2.extractLsb' 2 5
      badWindows := w2.extractLsb' 7 8, clearWindows := w2.extractLsb' 15 8, uncorrTh := w3.extractLsb' 0 8
      symTh := w3.extractLsb' 8 24 }
  let d : DetCfg := {}
  let cluster := decide (det = dClusterState) || decide (det = dPipeParity)
  let fec := decide (det = dFecDegrade)
  let limitOk := if cluster then decide (n.failLimit ≠ 0) else decide (n.failLimit = d.failLimit)
  let fecOk :=
    if fec then
      decide (n.action ≠ 3) && decide (10 ≤ n.windowLog2.toNat) && decide (n.windowLog2.toNat ≤ 24) &&
        decide (n.badWindows ≠ 0) && decide (n.clearWindows ≠ 0) && decide (n.uncorrTh ≠ 0) && decide (n.symTh ≠ 0)
    else
      decide ({ n with eventEn := d.eventEn, failLimit := d.failLimit } = d)
  if (detCount det ≤ inst ∧ inst ≠ allInst) ∨ detCount det = 0 ∨ limitOk = false ∨ fecOk = false then fail s stBadParam
  else
    let kept := if inst = allInst then s.err.cfgs.filter fun e => decide (e.1 / 2 ^ 20 ≠ det) else s.err.cfgs
    let t := { s with err := { s.err with cfgs := tins kept (detKey det inst) n } }
    if fec then done (t.fecChanged s (tkeys t.ports |>.filter fun p => decide (inst = allInst) || decide (inst = p))).protectAll
    else done t

def execErrConfig (c : Cmd) (s : State) : Res := .next (runCmd 0x0903 c s (errConfigAct c))

/-- The counters of a detector's instances, the one named or all of them. -/
def State.detsOf (s : State) (det inst : Nat) : List Detector :=
  (s.err.dets.filter fun e => decide (e.1 / 2 ^ 20 = det) && (decide (inst = allInst) || decide (e.1 % 2 ^ 20 = inst))).map
    Prod.snd

/-- ERR_STATUS (R406, Table 12-9). -/
def errStatusAct (c : Cmd) (s : State) : State × Option Ans :=
  let det := detOf c
  let inst := instOf c
  if (detCount det ≤ inst ∧ inst ≠ allInst) ∨ detCount det = 0 then fail s stBadParam
  else
    let l := s.detsOf det inst
    let sum (f : Detector → Nat) : Nat := (l.map f).foldl (· + ·) 0
    let last := tget s.err.lastInst det 0
    let degraded : Bool := decide (det = dFecDegrade) && decide (inst ≠ allInst) && (s.port inst).degraded
    done s
      (wordsOf (min (sum fun d => d.corrected.toNat) (2 ^ 48 - 1)) 2 ++
        [word (min (sum fun d => d.uncorrected.toNat) (2 ^ 32 - 1)), word (min (sum fun d => d.recoveries.toNat) (2 ^ 32 - 1)),
          word (min (sum fun d => d.injected.toNat) (2 ^ 32 - 1)),
          pack [(0, min (sum fun d => b2n d.failed) 65535), (16, b2n degraded)], word last] ++
        wordsOf (s.det det (if inst = allInst then last else inst)).lastBeat.toNat 2)

def execErrStatus (c : Cmd) (s : State) : Res := .next (runCmd 0x0901 c s (errStatusAct c))

/-- The record `k` back from the newest; zeros where the log does not hold it yet. -/
def logBack (l : List LogRec) (k : Nat) : List Word :=
  if k < l.length then
    match l[l.length - 1 - k]? with
    | some r => r.words
    | none => List.replicate 8 0
  else List.replicate 8 0

/-- ERR_LOG_READ (Table 12-6). -/
def errLogReadAct (c : Cmd) (s : State) : State × Option Ans :=
  let first := fld (wd c.words 0) 0 10
  let n := fld (wd c.words 0) 10 11
  if n = 0 ∨ 64 < n ∨ 1024 < first + n then fail s stBadParam
  else done s ((List.range n).flatMap fun i => logBack s.err.log (first + n - 1 - i))

def execErrLogRead (c : Cmd) (s : State) : Res := .next (runCmd 0x0904 c s (errLogReadAct c))

end Sys2Proof.Machine
end

