-- ==== Sys2Proof/Machine/Dispatch.lean ====
section
/-!
DEFINITION. One arm per command of the block: its meaning, or its refusal by name.
-/

namespace Sys2Proof.Machine

open Sys2Proof

def exec (i : Instr) (s : State) : Host.Outcome State Fault Refusal :=
  match i with
  | .identify c => Sys2Proof.Machine.execIdentify c s
  | .behaviourArm c => Sys2Proof.Machine.execBehaviourArm c s
  | .behaviourCommit c => Sys2Proof.Machine.execBehaviourCommit c s
  | .behaviourDisarm c => Sys2Proof.Machine.execBehaviourDisarm c s
  | .nop c => Sys2Proof.Machine.execNop c s
  | .barrier c => Sys2Proof.Machine.execBarrier c s
  | .queueConfig c => Sys2Proof.Machine.execQueueConfig c s
  | .epochStatus c => Sys2Proof.Machine.execEpochStatus c s
  | .activate c => Sys2Proof.Machine.execActivate c s
  | .parishActivate c => Sys2Proof.Machine.execParishActivate c s
  | .epochAbandon c => Sys2Proof.Machine.execEpochAbandon c s
  | .functionRights c => Sys2Proof.Machine.execFunctionRights c s
  | .eventConfig c => Sys2Proof.Machine.execEventConfig c s
  | .hostRingConfig c => Sys2Proof.Machine.execHostRingConfig c s
  | .hostCodeMap c => Sys2Proof.Machine.execHostCodeMap c s
  | .laneConfig c => Sys2Proof.Machine.execLaneConfig c s
  | .laneStatus c => Sys2Proof.Machine.execLaneStatus c s
  | .laneTxEq c => Sys2Proof.Machine.execLaneTxEq c s
  | .laneRxEq c => Sys2Proof.Machine.execLaneRxEq c s
  | .laneFomRead c => Sys2Proof.Machine.execLaneFomRead c s
  | .prbsConfig c => Sys2Proof.Machine.execPrbsConfig c s
  | .prbsRead c bits errs => Sys2Proof.Machine.execPrbsRead c bits errs s
  | .laneRetrain c => Sys2Proof.Machine.execLaneRetrain c s
  | .portConfig c => Sys2Proof.Machine.execPortConfig c s
  | .portDelete c => Sys2Proof.Machine.execPortDelete c s
  | .portStatus c => Sys2Proof.Machine.execPortStatus c s
  | .macStatsRead c => Sys2Proof.Machine.execMacStatsRead c s
  | .portFcConfig c => Sys2Proof.Machine.execPortFcConfig c s
  | .portTsCal c => Sys2Proof.Machine.execPortTsCal c s
  | .parserPortConfig c => Sys2Proof.Machine.execParserPortConfig c s
  | .parseStateWrite c => Sys2Proof.Machine.execParseStateWrite c s
  | .parseTransWrite c => Sys2Proof.Machine.execParseTransWrite c s
  | .parseRead c => Sys2Proof.Machine.execParseRead c s
  | .patternWrite c => Sys2Proof.Machine.execPatternWrite c s
  | .rangeWrite c => Sys2Proof.Machine.execRangeWrite c s
  | .keyProfileWrite c => Sys2Proof.Machine.execKeyProfileWrite c s
  | .ruleWrite c => Sys2Proof.Machine.execRuleWrite c s
  | .ruleDelete c => Sys2Proof.Machine.execRuleDelete c s
  | .ruleRead c => Sys2Proof.Machine.execRuleRead c s
  | .parserStatsRead c => Sys2Proof.Machine.execParserStatsRead c s
  | .tblPartition c => Sys2Proof.Machine.execTblPartition c s
  | .emInsert c => Sys2Proof.Machine.execEmInsert c s
  | .emDelete c => Sys2Proof.Machine.execEmDelete c s
  | .lpmInsert c => Sys2Proof.Machine.execLpmInsert c s
  | .lpmDelete c => Sys2Proof.Machine.execLpmDelete c s
  | .tblSearch c => Sys2Proof.Machine.execTblSearch c s
  | .tblNext c => Sys2Proof.Machine.execTblNext c s
  | .tblFlush c => Sys2Proof.Machine.execTblFlush c s
  | .tblObjWrite c => Sys2Proof.Machine.execTblObjWrite c s
  | .tblObjDelete c => Sys2Proof.Machine.execTblObjDelete c s
  | .tblObjStatus c => Sys2Proof.Machine.execTblObjStatus c s
  | .ecmpMemberWrite c => Sys2Proof.Machine.execEcmpMemberWrite c s
  | .tblPortConfig c => Sys2Proof.Machine.execTblPortConfig c s
  | .tblGlobalConfig c => Sys2Proof.Machine.execTblGlobalConfig c s
  | .emKeyProfileWrite c => Sys2Proof.Machine.execEmKeyProfileWrite c s
  | .tblStatus c => Sys2Proof.Machine.execTblStatus c s
  | .bufRegionConfig c => Sys2Proof.Machine.execBufRegionConfig c s
  | .bufPortConfig c => Sys2Proof.Machine.execBufPortConfig c s
  | .bufQueueConfig c => Sys2Proof.Machine.execBufQueueConfig c s
  | .wredProfileWrite c => Sys2Proof.Machine.execWredProfileWrite c s
  | .glacierQuotaConfig c => Sys2Proof.Machine.execGlacierQuotaConfig c s
  | .bufRegionStatus c => Sys2Proof.Machine.execBufRegionStatus c s
  | .queueStatus c => Sys2Proof.Machine.execQueueStatus c s
  | .bufGlacierStatus c => Sys2Proof.Machine.execBufGlacierStatus c s
  | .schedPortConfig c => Sys2Proof.Machine.execSchedPortConfig c s
  | .schedQueueConfig c => Sys2Proof.Machine.execSchedQueueConfig c s
  | .gateListWrite c => Sys2Proof.Machine.execGateListWrite c s
  | .gateListRead c => Sys2Proof.Machine.execGateListRead c s
  | .gateActivate c => Sys2Proof.Machine.execGateActivate c s
  | .gateCancel c => Sys2Proof.Machine.execGateCancel c s
  | .gateStatus c => Sys2Proof.Machine.execGateStatus c s
  | .meterConfig c => Sys2Proof.Machine.execMeterConfig c s
  | .meterRead c => Sys2Proof.Machine.execMeterRead c s
  | .schedQueueStatus c => Sys2Proof.Machine.execSchedQueueStatus c s
  | .timeStatus c => Sys2Proof.Machine.execTimeStatus c s
  | .bellConfig c => Sys2Proof.Machine.execBellConfig c s
  | .timeSourceConfig c => Sys2Proof.Machine.execTimeSourceConfig c s
  | .timeAdjustStep c => Sys2Proof.Machine.execTimeAdjustStep c s
  | .timeAdjustSlew c => Sys2Proof.Machine.execTimeAdjustSlew c s
  | .timeAdjustFreq c => Sys2Proof.Machine.execTimeAdjustFreq c s
  | .timeAdjustSet c => Sys2Proof.Machine.execTimeAdjustSet c s
  | .timePpsLabel c => Sys2Proof.Machine.execTimePpsLabel c s
  | .tallyConfig c => Sys2Proof.Machine.execTallyConfig c s
  | .dumpRingConfig c => Sys2Proof.Machine.execDumpRingConfig c s
  | .tallyPortRead c => Sys2Proof.Machine.execTallyPortRead c s
  | .pcConfig c => Sys2Proof.Machine.execPcConfig c s
  | .pcRead c => Sys2Proof.Machine.execPcRead c s
  | .rateConfig c => Sys2Proof.Machine.execRateConfig c s
  | .rateRead c => Sys2Proof.Machine.execRateRead c s
  | .sampleConfig c => Sys2Proof.Machine.execSampleConfig c s
  | .mirrorConfig c => Sys2Proof.Machine.execMirrorConfig c s
  | .errStatus c => Sys2Proof.Machine.execErrStatus c s
  | .errInjectCancel c => Sys2Proof.Machine.execErrInjectCancel c s
  | .errInjectOnce c => Sys2Proof.Machine.execErrInjectOnce c s
  | .errInjectPeriodic c => Sys2Proof.Machine.execErrInjectPeriodic c s
  | .errInjectArmed c => Sys2Proof.Machine.execErrInjectArmed c s
  | .errConfig c => Sys2Proof.Machine.execErrConfig c s
  | .errLogRead c => Sys2Proof.Machine.execErrLogRead c s
  | .stewardStatus c => Sys2Proof.Machine.execStewardStatus c s
  | .microcodeLoadBegin c => Sys2Proof.Machine.execMicrocodeLoadBegin c s
  | .microcodeLoadData c => Sys2Proof.Machine.execMicrocodeLoadData c s
  | .microcodeLoadEnd c => Sys2Proof.Machine.execMicrocodeLoadEnd c s
  | .microcodeLoadFromSlot c => Sys2Proof.Machine.execMicrocodeLoadFromSlot c s
  | .stewardPatch c => Sys2Proof.Machine.execStewardPatch c s
  | .stewardTraceRead c => Sys2Proof.Machine.execStewardTraceRead c s
  | .parishConfig c => Sys2Proof.Machine.execParishConfig c s
  | .parishStatus c => Sys2Proof.Machine.execParishStatus c s
  | .relayConfig c => Sys2Proof.Machine.execRelayConfig c s
  | .protectGroupWrite c => Sys2Proof.Machine.execProtectGroupWrite c s
  | .watchSlotWrite c => Sys2Proof.Machine.execWatchSlotWrite c s
  | .parishMemberRead c => Sys2Proof.Machine.execParishMemberRead c s
  | .powerStatus c => Sys2Proof.Machine.execPowerStatus c s
  | .thermalConfig c => Sys2Proof.Machine.execThermalConfig c s
  | .clockStatus c => Sys2Proof.Machine.execClockStatus c s
  | .keepRunning c => Sys2Proof.Machine.execKeepRunning c s
  | .allowStop c => Sys2Proof.Machine.execAllowStop c s
  | .dieHold c => Sys2Proof.Machine.execDieHold c s
  | .dieRelease c => Sys2Proof.Machine.execDieRelease c s
  | .avsConfig c => Sys2Proof.Machine.execAvsConfig c s
  | .journalRead c => Sys2Proof.Machine.execJournalRead c s
  | .journalAppend c => Sys2Proof.Machine.execJournalAppend c s
  | .imageWriteBegin c => Sys2Proof.Machine.execImageWriteBegin c s
  | .imageWriteData c => Sys2Proof.Machine.execImageWriteData c s
  | .imageWriteFinish c => Sys2Proof.Machine.execImageWriteFinish c s
  | .imageSelect c => Sys2Proof.Machine.execImageSelect c s
  | .imageStatus c => Sys2Proof.Machine.execImageStatus c s
  | .cmdDoorbell fn q producer => Sys2Proof.Machine.execCmdDoorbell fn q producer s
  | .hostTxDoorbell fn producer => Sys2Proof.Machine.execHostTxDoorbell fn producer s
  | .adminCmdEnable fn value => Sys2Proof.Machine.execAdminCmdEnable fn value s
  | .registerWrite bus offset value => Sys2Proof.Machine.execRegisterWrite bus offset value s
  | .cmdFifo data => Sys2Proof.Machine.execCmdFifo data s
  | .rplFifo => Sys2Proof.Machine.execRplFifo s
  | .evtFifo => Sys2Proof.Machine.execEvtFifo s
  | .resync value => Sys2Proof.Machine.execResync value s
  | .go value => Sys2Proof.Machine.execGo value s
  | .commandFetch fn q bytes => Sys2Proof.Machine.execCommandFetch fn q bytes s
  | .mailboxCommandTake => Sys2Proof.Machine.execMailboxCommandTake s
  | .commandDispatch src q => Sys2Proof.Machine.execCommandDispatch src q s
  | .commandComplete src q tag => Sys2Proof.Machine.execCommandComplete src q tag s
  | .atBeatBoundary src q tag => Sys2Proof.Machine.execAtBeatBoundary src q tag s
  | .replyWrite src q room => Sys2Proof.Machine.execReplyWrite src q room s
  | .eventDelivery source dest room => Sys2Proof.Machine.execEventDelivery source dest room s
  | .hostTxDescriptor fn desc data => Sys2Proof.Machine.execHostTxDescriptor fn desc data s
  | .signalDetected port => Sys2Proof.Machine.execSignalDetected port s
  | .negotiationResolved port partner => Sys2Proof.Machine.execNegotiationResolved port partner s
  | .negTimeout port => Sys2Proof.Machine.execNegTimeout port s
  | .trainingDone port inverted => Sys2Proof.Machine.execTrainingDone port inverted s
  | .trainTimeout port => Sys2Proof.Machine.execTrainTimeout port s
  | .alignLock port logical skewNs delaysPs inverted => Sys2Proof.Machine.execAlignLock port logical skewNs delaysPs inverted s
  | .alignTimeout port => Sys2Proof.Machine.execAlignTimeout port s
  | .signalLost lane lock => Sys2Proof.Machine.execSignalLost lane lock s
  | .fomWindowEnd lane window eq => Sys2Proof.Machine.execFomWindowEnd lane window eq s
  | .rxFrameStart port => Sys2Proof.Machine.execRxFrameStart port s
  | .rxFrameEnd port len data check => Sys2Proof.Machine.execRxFrameEnd port len data check s
  | .pauseTimerExpiry port prio => Sys2Proof.Machine.execPauseTimerExpiry port prio s
  | .pauseWdFired port prio => Sys2Proof.Machine.execPauseWdFired port prio s
  | .pauseWdEnded port prio => Sys2Proof.Machine.execPauseWdEnded port prio s
  | .xoffRefresh port prio => Sys2Proof.Machine.execXoffRefresh port prio s
  | .parseStart pkt present => Sys2Proof.Machine.execParseStart pkt present s
  | .admission region pkts => Sys2Proof.Machine.execAdmission region pkts s
  | .refillRequest region queues => Sys2Proof.Machine.execRefillRequest region queues s
  | .refillDataArrived queue ue => Sys2Proof.Machine.execRefillDataArrived queue ue s
  | .pointerFetchDone die pool => Sys2Proof.Machine.execPointerFetchDone die pool s
  | .pointerWritebackDone die pool => Sys2Proof.Machine.execPointerWritebackDone die pool s
  | .txSelect port => Sys2Proof.Machine.execTxSelect port s
  | .txUnderrun port sent => Sys2Proof.Machine.execTxUnderrun port sent s
  | .txFrameEnd port => Sys2Proof.Machine.execTxFrameEnd port s
  | .portDrainStep port => Sys2Proof.Machine.execPortDrainStep port s
  | .shaperTick => Sys2Proof.Machine.execShaperTick s
  | .meterTick => Sys2Proof.Machine.execMeterTick s
  | .gateEntryChange port => Sys2Proof.Machine.execGateEntryChange port s
  | .gateTakeover port => Sys2Proof.Machine.execGateTakeover port s
  | .queueSample port => Sys2Proof.Machine.execQueueSample port s
  | .beatBoundary => Sys2Proof.Machine.execBeatBoundary s
  | .tallyBankClose => Sys2Proof.Machine.execTallyBankClose s
  | .conservationCheck => Sys2Proof.Machine.execConservationCheck s
  | .dumpUnitWrite stream consumer => Sys2Proof.Machine.execDumpUnitWrite stream consumer s
  | .ageSweepVisit loc => Sys2Proof.Machine.execAgeSweepVisit loc s
  | .learnInsert region => Sys2Proof.Machine.execLearnInsert region s
  | .stashMove table idx => Sys2Proof.Machine.execStashMove table idx s
  | .shadowRewriteDone family idx => Sys2Proof.Machine.execShadowRewriteDone family idx s
  | .epochCleanupDone epoch => Sys2Proof.Machine.execEpochCleanupDone epoch s
  | .flushDone port => Sys2Proof.Machine.execFlushDone port s
  | .objectFreed kind id => Sys2Proof.Machine.execObjectFreed kind id s
  | .copyRebuildDone region => Sys2Proof.Machine.execCopyRebuildDone region s
  | .bellRateChange => Sys2Proof.Machine.execBellRateChange s
  | .ppsEdge captured => Sys2Proof.Machine.execPpsEdge captured s
  | .ref10mWindow freq => Sys2Proof.Machine.execRef10mWindow freq s
  | .sourceTimeout => Sys2Proof.Machine.execSourceTimeout s
  | .powerOnSecond => Sys2Proof.Machine.execPowerOnSecond s
  | .powerOnSave => Sys2Proof.Machine.execPowerOnSave s
  | .microTrap engine cause => Sys2Proof.Machine.execMicroTrap engine cause s
  | .patchLoad region => Sys2Proof.Machine.execPatchLoad region s
  | .patchVerify region same => Sys2Proof.Machine.execPatchVerify region same s
  | .patchDone region => Sys2Proof.Machine.execPatchDone region s
  | .patchFailed region => Sys2Proof.Machine.execPatchFailed region s
  | .granaryUe region bank sub row cellOk => Sys2Proof.Machine.execGranaryUe region bank sub row cellOk s
  | .granaryScrub region corrected ues => Sys2Proof.Machine.execGranaryScrub region corrected ues s
  | .tableScrub region corrected ue => Sys2Proof.Machine.execTableScrub region corrected ue s
  | .tableUe region addr pkt => Sys2Proof.Machine.execTableUe region addr pkt s
  | .clusterRecovery cluster egress parity => Sys2Proof.Machine.execClusterRecovery cluster egress parity s
  | .fenceLift cluster egress => Sys2Proof.Machine.execFenceLift cluster egress s
  | .regionStateUe region word => Sys2Proof.Machine.execRegionStateUe region word s
  | .glacierDescUe queue keep => Sys2Proof.Machine.execGlacierDescUe queue keep s
  | .poolAuditDone die => Sys2Proof.Machine.execPoolAuditDone die s
  | .glacierStackFail stack => Sys2Proof.Machine.execGlacierStackFail stack s
  | .d2dCrc channel => Sys2Proof.Machine.execD2dCrc channel s
  | .d2dWire channel wire => Sys2Proof.Machine.execD2dWire channel wire s
  | .d2dLinkDown dir => Sys2Proof.Machine.execD2dLinkDown dir s
  | .d2dRetrain healthy => Sys2Proof.Machine.execD2dRetrain healthy s
  | .fecDegradeWindow port beyond errs => Sys2Proof.Machine.execFecDegradeWindow port beyond errs s
  | .linkFault port => Sys2Proof.Machine.execLinkFault port s
  | .stewardWatchdog engine => Sys2Proof.Machine.execStewardWatchdog engine s
  | .clockLoss domain => Sys2Proof.Machine.execClockLoss domain s
  | .referenceLossTimeout => Sys2Proof.Machine.execReferenceLossTimeout s
  | .thermalWarn sensor reading => Sys2Proof.Machine.execThermalWarn sensor reading s
  | .thermalTrip sensor reading => Sys2Proof.Machine.execThermalTrip sensor reading s
  | .voltageOor rail mv => Sys2Proof.Machine.execVoltageOor rail mv s
  | .cmdBufUe src q tag => Sys2Proof.Machine.execCmdBufUe src q tag s
  | .injectionPeriod detector inst => Sys2Proof.Machine.execInjectionPeriod detector inst s
  | .riwenCommand h bytes => Sys2Proof.Machine.execRiwenCommand h bytes s
  | .riwenReply h bytes => Sys2Proof.Machine.execRiwenReply h bytes s
  | .riwenEvent h bytes => Sys2Proof.Machine.execRiwenEvent h bytes s
  | .bell h b rxNs => Sys2Proof.Machine.execBell h b rxNs s
  | .delayReq h seq rxNs => Sys2Proof.Machine.execDelayReq h seq rxNs s
  | .delayResp h seq t1 t2 t3 t4 => Sys2Proof.Machine.execDelayResp h seq t1 t2 t3 t4 s
  | .hello h segment managerSeen bitmap => Sys2Proof.Machine.execHello h segment managerSeen bitmap s
  | .prepare h epoch deadline => Sys2Proof.Machine.execPrepare h epoch deadline s
  | .vote h epoch segment refused bitmap => Sys2Proof.Machine.execVote h epoch segment refused bitmap s
  | .commit h epoch thaw => Sys2Proof.Machine.execCommit h epoch thaw s
  | .commitAck h epoch => Sys2Proof.Machine.execCommitAck h epoch s
  | .abort h epoch cause => Sys2Proof.Machine.execAbort h epoch cause s
  | .linkAlarm h originDev originPort down cause seq hops => Sys2Proof.Machine.execLinkAlarm h originDev originPort down cause seq hops s
  | .tallySummary h bytes => Sys2Proof.Machine.execTallySummary h bytes s
  | .voteDeadline => Sys2Proof.Machine.execVoteDeadline s
  | .activationDeadline => Sys2Proof.Machine.execActivationDeadline s
  | .standbyAckTimeout => Sys2Proof.Machine.execStandbyAckTimeout s
  | .commandResend ftag => Sys2Proof.Machine.execCommandResend ftag s
  | .managerLost => Sys2Proof.Machine.execManagerLost s
  | .standbyTakeover => Sys2Proof.Machine.execStandbyTakeover s
  | .alarmRepeat port => Sys2Proof.Machine.execAlarmRepeat port s
  | .remoteDownExpiry port => Sys2Proof.Machine.execRemoteDownExpiry port s
  | .wtrExpiry group => Sys2Proof.Machine.execWtrExpiry group s
  | .vauxApplied => Sys2Proof.Machine.execVauxApplied s
  | .vauxRemoved => Sys2Proof.Machine.execVauxRemoved s
  | .coreRailsInRange bootMode => Sys2Proof.Machine.execCoreRailsInRange bootMode s
  | .resetN => Sys2Proof.Machine.execResetN s
  | .resetHoldEnd => Sys2Proof.Machine.execResetHoldEnd s
  | .perstN => Sys2Proof.Machine.execPerstN s
  | .functionLevelReset fn => Sys2Proof.Machine.execFunctionLevelReset fn s
  | .stageClocksDone primary standby => Sys2Proof.Machine.execStageClocksDone primary standby s
  | .stageCentralDone => Sys2Proof.Machine.execStageCentralDone s
  | .stageRegionsDone => Sys2Proof.Machine.execStageRegionsDone s
  | .stageGlacierDone trained => Sys2Proof.Machine.execStageGlacierDone trained s
  | .stageD2dDone channels => Sys2Proof.Machine.execStageD2dDone channels s
  | .stageLanesDone chiplets => Sys2Proof.Machine.execStageLanesDone chiplets s
  | .imageRestartTimer => Sys2Proof.Machine.execImageRestartTimer s
  | .dieReady die => Sys2Proof.Machine.execDieReady die s
  | .avsStep want => Sys2Proof.Machine.execAvsStep want s
  | .clockWake block => Sys2Proof.Machine.execClockWake block s
  | .branchStop => Sys2Proof.Machine.execBranchStop s
  | .prbsCheckerLock lane => Sys2Proof.Machine.execPrbsCheckerLock lane s
  | .prbsLockLost lane bits errs => Sys2Proof.Machine.execPrbsLockLost lane bits errs s
  | .coefficientRequest lane post up => Sys2Proof.Machine.execCoefficientRequest lane post up s
  | .hostReceiveWrite fn consumer => Sys2Proof.Machine.execHostReceiveWrite fn consumer s
  | .slotEraseDone slot => Sys2Proof.Machine.execSlotEraseDone slot s
  | .referenceRestored => Sys2Proof.Machine.execReferenceRestored s
  | .pcieLinkUp => Sys2Proof.Machine.execPcieLinkUp s
  | .allocatorCountRecomputed region => Sys2Proof.Machine.execAllocatorCountRecomputed region s

end Sys2Proof.Machine
end

