-- ==== Sys2Proof/Machine/Microcode.lean ====
section
/-!
DEFINITION. What a step does when no command waits: one cycle of the time base, and one microword of every engine that runs (R363
to R365, Table 11-2). A microword moves its engine's own state, writes the units' words, sends the reply of the command in hand and raises
events. What a command does besides is its opcode's rule, which its row applies; the spec gives no map from memory addresses, special
sources and destinations and condition inputs to the part, so what is read from them is open, and what is written to them is kept as the
engine put it. (DESIGN CHOICE: log entries 2, 107.)
-/

namespace Sys2Proof.Machine

/-! ### The fields of a microword (Table 11-2) -/

def uField (w : BitVec 160) (lo n : Nat) : Nat := w.toNat / 2 ^ lo % 2 ^ n

def uNext (w : BitVec 160) : BitVec 14 := w.extractLsb' 0 14
def uSeq (w : BitVec 160) : Nat := uField w 14 4
def uCondInv (w : BitVec 160) : Bool := w.getLsbD 24
def uSrcA (w : BitVec 160) : Nat := uField w 25 5
def uSrcB (w : BitVec 160) : Nat := uField w 30 5
def uAlu (w : BitVec 160) : Nat := uField w 35 4
def uDest (w : BitVec 160) : Nat := uField w 39 5
def uImm (w : BitVec 160) : Nat := uField w 44 16
def uMemOp (w : BitVec 160) : Nat := uField w 60 4
def uLoopSel (w : BitVec 160) : Nat := uField w 68 2
def uLoopOp (w : BitVec 160) : Nat := uField w 70 2
def uParam (w : BitVec 160) : Nat := uField w 72 8
def uCond (w : BitVec 160) : Nat := uField w 18 6
def uMemUnit (w : BitVec 160) : Nat := uField w 64 4
def uReplyOp (w : BitVec 160) : Nat := uField w 80 4
def uEventOp (w : BitVec 160) : Nat := uField w 84 2

/-! ### What a microword computes -/

/-- A free 64-bit value. -/
def State.fresh64 (s : State) : State × BitVec 64 :=
  let x := s.fresh
  (x.2, BitVec.ofNat 64 x.1)

/-- The value of an ALU source; special sources, and a parameter word that the command in hand does not have, are open. -/
def State.uSource (s : State) (e : Nat) (w : BitVec 160) (n : Nat) : State × BitVec 64 :=
  let g := s.engine e
  if n < 16 then (s, g.micro.scratch.getD n 0)
  else if n = 16 then (s, BitVec.ofNat 64 (uImm w))
  else if n = 18 then (s, g.memData)
  else
    match s.handFlight e with
    | some f =>
      match if n = 17 then f.cmd.words[uParam w]? else none with
      | some v => (s, v.zeroExtend 64)
      | none => s.fresh64
    | none => s.fresh64

/-- The ALU operations whose result the table names whole; of the others (compare, field extract and insert, CRC-32C step) the
operands' layout is open, and with it the result. -/
def uCompute (op : Nat) (a b : BitVec 64) : Option (BitVec 64) :=
  match op with
  | 1 => some (a + b)
  | 2 => some (a - b)
  | 3 => some (a &&& b)
  | 4 => some (a ||| b)
  | 5 => some (a ^^^ b)
  | 6 => some (a <<< b.toNat)
  | 7 => some (a >>> b.toNat)
  | 8 => none
  | 9 => none
  | 10 => none
  | 11 => none
  | _ => some a

/-- The ALU's result, with the condition flags that a compare leaves. -/
def State.uAluStep (s : State) (e : Nat) (w : BitVec 160) : State × BitVec 64 :=
  let a := s.uSource e w (uSrcA w)
  let b := a.1.uSource e w (uSrcB w)
  match uCompute (uAlu w) a.2 b.2 with
  | some v => (b.1, v)
  | none =>
    let x := b.1.fresh64
    let t := x.1
    if uAlu w = 8 then
      let g := t.engine e
      let y := t.fresh
      (y.2.setEngine e { g with micro := { g.micro with flags := BitVec.ofNat 8 y.1 } }, x.2)
    else x

/-- The result reaches its destination. -/
def Steward.uWrite (g : Steward) (n : Nat) (v : BitVec 64) : Steward :=
  if n < 16 then { g with micro := { g.micro with scratch := g.micro.scratch.set n v } }
  else if n = 17 then { g with io := { g.io with replyWord := v } }
  else if n = 18 then { g with memAddr := v }
  else if n = 19 then { g with memData := v }
  else if 20 ≤ n then { g with io := { g.io with special := g.io.special.set (n - 20) v } }
  else g

/-- An access is put on its unit, with the address and the data that the engine holds. -/
def Steward.uAccess (g : Steward) (w : BitVec 160) : Steward :=
  if 1 ≤ uMemOp w ∧ uMemOp w ≤ 4 then
    { g with io := { g.io with
      access := some { op := uMemOp w, unit := uMemUnit w, addr := g.memAddr, data := g.memData } } }
  else g

/-- A read, alone or within a read-modify-write, brings data; what it brings is open, as the part itself may have changed the word. -/
def State.uRead (s : State) (e : Nat) : State :=
  let x := s.fresh64
  x.1.setEngine e { x.1.engine e with memData := x.2 }

/-- A word is written to a unit at the memory address. -/
def State.uStore (s : State) (e unit : Nat) (v : BitVec 128) : State :=
  let key := (e * 16 + unit) * 2 ^ 64 + (s.engine e).memAddr.toNat
  { s with stw := { s.stw with units := tins s.stw.units key v } }

/-- MEM_OP on its unit: a write stores the memory data; what a read-modify-write makes of the word, and the upper half of a 128-bit write,
are open. -/
def State.uMemory (s : State) (e : Nat) (w : BitVec 160) : State :=
  let s := s.setEngine e ((s.engine e).uAccess w)
  let low := (s.engine e).memData
  match uMemOp w with
  | 1 => s.uRead e
  | 2 => s.uStore e (uMemUnit w) (low.zeroExtend 128)
  | 3 =>
    let x := (s.uRead e).fresh64
    x.1.uStore e (uMemUnit w) (x.2.zeroExtend 128)
  | 4 =>
    let x := s.fresh64
    x.1.uStore e (uMemUnit w) (x.2 ++ low)
  | _ => s

/-- REPLY_OP 3: the reply that the microwords have put together is the reply of the command in hand. -/
def State.uSend (s : State) (e : Nat) (w : BitVec 160) : State :=
  if uReplyOp w ≠ 3 then s
  else
    match s.handFlight e with
    | none => s
    | some f =>
      let o := (s.engine e).io
      s.endCmd f (s.mkReply f.cmd o.status.toNat (o.reply.map fun v => v.truncate 32) false)

/-- EVENT_OP 2: the event is raised by the engine's steward, with the payload words gathered; its code is open. -/
def State.uRaise (s : State) (e : Nat) (w : BitVec 160) : State :=
  if uEventOp w ≠ 2 then s
  else
    let x := s.fresh
    x.2.raise e (x.1 % 2 ^ 16) ((x.2.engine e).io.event.map fun v => v.truncate 32)

/-- REPLY_OP and EVENT_OP with the ALU's result: the reply takes its status from it and its words from ALU_DEST 17, the event its
payload. -/
def MicroIo.after (o : MicroIo) (w : BitVec 160) (v : BitVec 64) : MicroIo :=
  let o := match uReplyOp w with
    | 1 => { o with status := v.truncate 8 }
    | 2 => { o with reply := o.reply ++ [o.replyWord] }
    | 3 => { o with sent := some (o.status, o.reply), status := 0, reply := [] }
    | _ => o
  match uEventOp w with
  | 1 => { o with event := o.event ++ [v] }
  | 2 => { o with raised := some o.event, event := [] }
  | _ => o

/-- The loop counter that LOOP_SEL names, after LOOP_OP. -/
def uLoop (w : BitVec 160) (v : BitVec 64) (c : BitVec 16) : BitVec 16 :=
  match uLoopOp w with
  | 1 => v.truncate 16
  | 2 => c - 1
  | 3 => c - 1
  | _ => c

/-! ### Where the next microword is -/

/-- What comes after a microword. -/
inductive UNext where
  /-- The micro-PC goes on at an address, with this call-return stack. -/
  | go (pc : BitVec 14) (stack : List (BitVec 14))
  /-- The engine stays at the microword. -/
  | stay
  /-- SEQ_OP TRAP_RETURN. -/
  | ret
  /-- SEQ_OP YIELD and WAIT_EVENT. -/
  | yield
  | wait
  /-- SEQ_OP FAULT. -/
  | fault
  deriving DecidableEq, Repr

/-- What the tests of the loop counters have found, after LOOP_OP: a load begins a new count, and only 3 tests. -/
def uTest (w : BitVec 160) (c : BitVec 16) (d : BitVec 4) : BitVec 4 :=
  let bit : BitVec 4 := 1 <<< uLoopSel w
  match uLoopOp w with
  | 1 => d &&& ~~~ bit
  | 3 => if c = 0 then d ||| bit else d &&& ~~~ bit
  | _ => d

/-- What SEQ_OP does, with the 64 condition inputs, what the last test of the loop counter found, the entry of the opcode in hand, and an open address for a
return that no call matches. -/
def uSequence (w : BitVec 160) (m : Micro) (conds : BitVec 64) (loopDone : Bool) (entry : Option (BitVec 14))
    (open_ : BitVec 14) : UNext :=
  let next := UNext.go (m.pc + 1) m.stack
  match uSeq w with
  | 1 => next
  | 2 => .go (uNext w) m.stack
  | 3 => if conds.getLsbD (uCond w) != uCondInv w then .go (uNext w) m.stack else next
  | 4 => .go (uNext w) ((m.pc + 1) :: m.stack.take 7)
  | 5 => match m.stack with
    | a :: r => .go a r
    | [] => .go open_ []
  | 6 => if loopDone then next else .go (uNext w) m.stack
  | 7 => match entry with
    | some a => .go a m.stack
    | none => .stay
  | 8 => .ret
  | 9 => .yield
  | 10 => .wait
  | _ => .fault

/-- The dispatch table's entry of the opcode of the command in hand. -/
def State.uEntry (s : State) (e : Nat) : Option (BitVec 14) :=
  (s.handFlight e).map fun f => (s.engine e).image.dispatch.getD (f.cmd.opcode.toNat % 4096) 0

/-- YIELD by an internal task: while a patch quiesces the engine the task is suspended (Table 11-6); otherwise it goes on, or, as
`switch` tells, another suspended task does. A command's routine and a handler go on. -/
def Steward.uYield (g : Steward) (switch : Bool) : Steward :=
  let m := { g.micro with pc := g.micro.pc + 1 }
  if m.task.isNone ∨ m.inHand.isSome ∨ g.saved.isSome then { g with micro := m }
  else if g.state = .quiescing then { g with micro := { m with task := none }, tasks := g.tasks ++ [m], lastYield := none }
  else
    match switch, g.tasks with
    | true, x :: xs => { g with micro := x, tasks := xs ++ [m], lastYield := some x }
    | _, _ => { g with micro := m, lastYield := some m }

/-- WAIT_EVENT: a command in hand goes on; otherwise the engine idles, its task ended, until a task is ready: a suspended one, or one
that begins. -/
def Steward.uWait (g : Steward) (ready : Bool) (begins : Option Nat) : Steward :=
  let m := { g.micro with pc := g.micro.pc + 1 }
  if m.inHand.isSome then { g with micro := m }
  else if !ready || decide (g.state = .quiescing) then { g with micro := { g.micro with task := none }, lastYield := none }
  else
    match begins, g.tasks with
    | none, x :: xs => { g with micro := x, tasks := xs, lastYield := some x }
    | n, _ => { g with micro := { m with task := some (n.getD 0) }, lastYield := none }

/-- The microword at the micro-PC completes, or stalls on its access. -/
def State.uIssue (s : State) (e : Nat) : State :=
  let w := (s.engine e).store (s.engine e).micro.pc.toNat
  let x := s.fresh
  let s := x.2
  if 1 ≤ uMemOp w ∧ uMemOp w ≤ 4 ∧ x.1 % 2 = 1 then s.setEngine e { s.engine e with stalled := true }
  else
    let a := s.uAluStep e w
    let s := ((a.1.uMemory e w).uSend e w).uRaise e w
    let g := { s.engine e with stalled := false }
    let g := if uSeq w = 0 then g else g.uWrite (uDest w) a.2
    let c := uLoop w a.2 (g.micro.loops.getD (uLoopSel w) 0)
    let g := { g with io := g.io.after w a.2, micro := { g.micro with loops := g.micro.loops.set (uLoopSel w) c, loopDone := uTest w c g.micro.loopDone } }
    let forced := decide (uSeq w = 7) && s.injected dWatchdog e 0
    let conds := BitVec.ofNat 64 (x.1 / 2 ^ 18)
    match if forced then UNext.fault else uSequence w g.micro conds (g.micro.loopDone.getLsbD (uLoopSel w)) (s.uEntry e) (BitVec.ofNat 14 (x.1 / 16)) with
    | .go pc st => s.setEngine e { g with micro := { g.micro with pc := pc, stack := st } }
    | .stay => s.setEngine e { s.engine e with stalled := false }
    | .ret =>
      if g.saved.isSome then (s.setEngine e g).trapReturn e
      else s.setEngine e { g with micro := { g.micro with pc := g.micro.pc + 1 } }
    | .yield =>
      let s := (s.setEngine e g).trace e 4 0
      s.setEngine e ((s.engine e).uYield (x.1.testBit 1))
    | .wait => s.setEngine e (g.uWait (x.1.testBit 1) (if x.1.testBit 2 then some (x.1 / 8) else none))
    | .fault => s.watchdogFault e

/-- One cycle of an engine that runs: at a microword boundary it takes its pending causes, then it fetches and issues its microword; a
handler of more than 1,024 microcycles is a watchdog fault (R369). (DESIGN CHOICE: log entry 107.) -/
def State.microword (s : State) (e : Nat) : State :=
  let s := s.takeCauses e
  let s := if (s.engine e).stalled then s else s.fetchWord e (s.engine e).micro.pc
  let g := s.engine e
  if g.saved.isNone then s.uIssue e
  else if 1024 ≤ g.handlerRun then s.watchdogFault e
  else (s.setEngine e { g with handlerRun := g.handlerRun + 1 }).uIssue e

/-- The engine issues microwords: it runs, or it quiesces with something left to do. -/
def State.microRuns (s : State) (e : Nat) : Bool :=
  let g := s.engine e
  decide (g.state = .running) ||
    (decide (g.state = .quiescing) &&
      (g.micro.task.isSome || g.micro.inHand.isSome || g.saved.isSome || !g.causes.isEmpty || g.stalled))

/-- One SCLK cycle of every engine. -/
def State.microCycle (s : State) : State :=
  if s.pwr.clkFailed.getLsbD 30 then s
  else (List.range 5).foldl (fun t e => if t.microRuns e then t.microword e else t) s

/-! ### The idle cycle -/

/-- An idle cycle: the time base advances, up to the cycle before the next beat boundary or the whole second of a change of B, which are the
rows BEAT_BOUNDARY and BELL_RATE_CHANGE; the engines run. (DESIGN CHOICE: log entry 2.) -/
def State.idle (s : State) : State :=
  if s.timeRuns = true ∧ s.time.advance.ns < s.time.nextDue then (s.elapse s.time.advance).microCycle
  else s

end Sys2Proof.Machine
end

