-- ==== Sys2Proof/Machine/Step.lean ====
section
/-!
DEFINITION. One step: the command at the front of the queue takes effect with the queue's rest; on an empty queue the
time base advances by one cycle and every engine by one microword (`idle`).
-/

namespace Sys2Proof.Machine

/-- The front command's effect, or one idle cycle. (DESIGN CHOICE: log entries 1, 10, 155.) -/
def step (s : State) : Host.Outcome State Fault Refusal :=
  match s.pending with
  | [] => .next s.idle
  | i :: rest => exec i { s with pending := rest }

/-- The state with the command that a word spells at the front of its queue. (DEDUCED: log entry 5.) -/
def State.withFetchWord (s : State) (nbits w : Nat) : State :=
  match Sys2Proof.decodeTableWord nbits w with
  | some i => { s with pending := i :: s.pending }
  | none => s

end Sys2Proof.Machine
end

