-- ==== Sys2Proof/WellFormed.lean ====
section
/-!
DEFINITION. When a command of the block is well formed: its operands lie in the ranges in which Table 0-4 and the tables of the
spec number their objects, and a packet's parameter words are as many as its header says, within R331.
-/

namespace Sys2Proof

/-- A sender that exists: function 0 to 15, the management bus, or a device number with the stand-in for a stale manager. -/
def Sender.wf : Sender → Bool
  | .pcie fn => decide (fn < 16)
  | .mgmt => true
  | .inband dev => decide (dev ≤ 16384)

/-- A packet that its sender can send: as many parameter words as PARAM_WORDS says, at most 1,020. -/
def Cmd.wf (c : Cmd) : Bool := c.src.wf && decide (c.words.length = c.paramWords.toNat) && decide (c.words.length ≤ 1020)

/-- The receive equaliser values have 32 taps (Table 2-9). -/
def RxEq.wf (e : RxEq) : Bool := decide (e.ffe.length = 32)

/-- A Riwen frame arrives on a port, with a payload of at most 4,100 bytes (Table 13-2). -/
def Riwen.wf (h : Riwen) : Bool := decide (h.port < 1024) && decide (h.payloadLen ≤ 4100)

/-- A counter that exists. -/
def CounterName.wf : CounterName → Bool
  | .perf i => decide (i < 512)
  | .mac p i => decide (p < 1024) && decide (i < 79)
  | .parser p i => decide (p < 1024) && decide (i < 7)
  | .meter i k => decide (i < 65536) && decide (k < 3)
  | .hits i => decide (i < 32768)
  | .histogram q b => decide (q < 16384) && decide (b < 16)
  | .tally p => decide (p < 1024)

/-- A state word of a region names an object of Table 0-4. -/
def RegionWord.wf : RegionWord → Bool
  | .meter i => decide (i < 65536)
  | .queueShaper q => decide (q < 16384)
  | .portShaper p => decide (p < 1024)
  | .headTag q => decide (q < 16384)
  | .virtualTime p _ => decide (p < 1024)
  | .allocatorCount => true
  | .linkCopy _ => true
  | .counterCopy => true
  | .counterBoth c => c.wf

/-- A state word that names a queue or a port names one of the region. -/
def RegionWord.isIn (w : RegionWord) (region : Nat) : Bool :=
  match w with
  | .meter _ => true
  | .queueShaper q => decide (q / 16 / 256 = region)
  | .portShaper p => decide (p / 256 = region)
  | .headTag q => decide (q / 16 / 256 = region)
  | .virtualTime p _ => decide (p / 256 = region)
  | .allocatorCount => true
  | .linkCopy _ => true
  | .counterCopy => true
  | .counterBoth _ => true

/-- A bus register: of a function of PCIe, of the boot window, of the management bus, or of the JTAG port. -/
def RegBus.wf : RegBus → Bool
  | .bar0 fn => decide (fn < 16)
  | .bar2 => true
  | .mgmt => true
  | .jtag => true

/-- A clock branch: of a port block, or of the MCLK masters. -/
def ClockBranch.wf : ClockBranch → Bool
  | .block n => decide (n < 128)
  | .mclk => true

/-- A command whose operands are in range. -/
def Instr.wf : Instr → Bool
  | .identify c => c.wf
  | .behaviourArm c => c.wf
  | .behaviourCommit c => c.wf
  | .behaviourDisarm c => c.wf
  | .nop c => c.wf
  | .barrier c => c.wf
  | .queueConfig c => c.wf
  | .epochStatus c => c.wf
  | .activate c => c.wf
  | .parishActivate c => c.wf
  | .epochAbandon c => c.wf
  | .functionRights c => c.wf
  | .eventConfig c => c.wf
  | .hostRingConfig c => c.wf
  | .hostCodeMap c => c.wf
  | .laneConfig c => c.wf
  | .laneStatus c => c.wf
  | .laneTxEq c => c.wf
  | .laneRxEq c => c.wf
  | .laneFomRead c => c.wf
  | .prbsConfig c => c.cmd.wf
  | .prbsRead c _ _ => c.wf
  | .laneRetrain c => c.wf
  | .portConfig c => c.wf
  | .portDelete c => c.wf
  | .portStatus c => c.wf
  | .macStatsRead c => c.cmd.wf
  | .portFcConfig c => c.wf
  | .portTsCal c => c.wf
  | .parserPortConfig c => c.wf
  | .parseStateWrite c => c.wf
  | .parseTransWrite c => c.wf
  | .parseRead c => c.wf
  | .patternWrite c => c.wf
  | .rangeWrite c => c.wf
  | .keyProfileWrite c => c.wf
  | .ruleWrite c => c.wf
  | .ruleDelete c => c.wf
  | .ruleRead c => c.wf
  | .parserStatsRead c => c.wf
  | .tblPartition c => c.wf
  | .emInsert c => c.wf
  | .emDelete c => c.wf
  | .lpmInsert c => c.wf
  | .lpmDelete c => c.wf
  | .tblSearch c => c.wf
  | .tblNext c => c.wf
  | .tblFlush c => c.wf
  | .tblObjWrite c => c.wf
  | .tblObjDelete c => c.wf
  | .tblObjStatus c => c.wf
  | .ecmpMemberWrite c => c.wf
  | .tblPortConfig c => c.wf
  | .tblGlobalConfig c => c.wf
  | .emKeyProfileWrite c => c.wf
  | .tblStatus c => c.wf
  | .bufRegionConfig c => c.wf
  | .bufPortConfig c => c.wf
  | .bufQueueConfig c => c.wf
  | .wredProfileWrite c => c.wf
  | .glacierQuotaConfig c => c.wf
  | .bufRegionStatus c => c.wf
  | .queueStatus c => c.wf
  | .bufGlacierStatus c => c.wf
  | .schedPortConfig c => c.wf
  | .schedQueueConfig c => c.wf
  | .gateListWrite c => c.wf
  | .gateListRead c => c.wf
  | .gateActivate c => c.wf
  | .gateCancel c => c.wf
  | .gateStatus c => c.wf
  | .meterConfig c => c.wf
  | .meterRead c => c.wf
  | .schedQueueStatus c => c.wf
  | .timeStatus c => c.wf
  | .bellConfig c => c.wf
  | .timeSourceConfig c => c.wf
  | .timeAdjustStep c => c.wf
  | .timeAdjustSlew c => c.wf
  | .timeAdjustFreq c => c.wf
  | .timeAdjustSet c => c.wf
  | .timePpsLabel c => c.wf
  | .tallyConfig c => c.wf
  | .dumpRingConfig c => c.wf
  | .tallyPortRead c => c.wf
  | .pcConfig c => c.wf
  | .pcRead c => c.wf
  | .rateConfig c => c.wf
  | .rateRead c => c.wf
  | .sampleConfig c => c.wf
  | .mirrorConfig c => c.wf
  | .errStatus c => c.wf
  | .errInjectCancel c => c.wf
  | .errInjectOnce c => c.wf
  | .errInjectPeriodic c => c.wf
  | .errInjectArmed c => c.wf
  | .errConfig c => c.wf
  | .errLogRead c => c.wf
  | .stewardStatus c => c.wf
  | .microcodeLoadBegin c => c.wf
  | .microcodeLoadData c => c.wf
  | .microcodeLoadEnd c => c.wf
  | .microcodeLoadFromSlot c => c.wf
  | .stewardPatch c => c.wf
  | .stewardTraceRead c => c.wf
  | .parishConfig c => c.wf
  | .parishStatus c => c.wf
  | .relayConfig c => c.wf
  | .protectGroupWrite c => c.wf
  | .watchSlotWrite c => c.wf
  | .parishMemberRead c => c.wf
  | .powerStatus c => c.wf
  | .thermalConfig c => c.wf
  | .clockStatus c => c.wf
  | .keepRunning c => c.wf
  | .allowStop c => c.wf
  | .dieHold c => c.wf
  | .dieRelease c => c.wf
  | .avsConfig c => c.wf
  | .journalRead c => c.wf
  | .journalAppend c => c.wf
  | .imageWriteBegin c => c.wf
  | .imageWriteData c => c.wf
  | .imageWriteFinish c => c.wf
  | .imageSelect c => c.wf
  | .imageStatus c => c.wf
  | .cmdDoorbell fn q _ => decide (fn < 16) && decide (q < 16)
  | .hostTxDoorbell fn _ => decide (fn < 16)
  | .adminCmdEnable fn _ => decide (fn < 16)
  | .registerWrite bus _ _ => bus.wf
  | .cmdFifo w => decide (w.data.length = 64)
  | .rplFifo => true
  | .evtFifo => true
  | .resync _ => true
  | .go _ => true
  | .commandFetch fn q _ => decide (fn < 16) && decide (q < 16)
  | .mailboxCommandTake => true
  | .commandDispatch src q => src.wf && decide (q < 16)
  | .commandComplete src q _ => src.wf && decide (q < 16)
  | .atBeatBoundary src q _ => src.wf && decide (q < 16)
  | .replyWrite src q _ => src.wf && decide (q < 16)
  | .eventDelivery source dest _ => decide (source < 5) && decide (dest < 18)
  | .hostTxDescriptor fn desc _ => decide (fn < 16) && decide (desc.length = 8)
  | .signalDetected port => decide (port < 1024)
  | .negotiationResolved port _ => decide (port < 1024)
  | .negTimeout port => decide (port < 1024)
  | .trainingDone port _ => decide (port < 1024)
  | .trainTimeout port => decide (port < 1024)
  | .alignLock port _ _ _ _ => decide (port < 1024)
  | .alignTimeout port => decide (port < 1024)
  | .signalLost lane _ => decide (lane < 1024)
  | .fomWindowEnd lane _ eq => decide (lane < 1024) && eq.wf
  | .rxFrameStart port => decide (port < 1024)
  | .rxFrameEnd port _ _ _ => decide (port < 1024)
  | .pauseTimerExpiry port prio => decide (port < 1024) && decide (prio < 8)
  | .pauseWdFired port prio => decide (port < 1024) && decide (prio < 8)
  | .pauseWdEnded port prio => decide (port < 1024) && decide (prio < 8)
  | .xoffRefresh port prio => decide (port < 1024) && decide (prio < 8)
  | .parseStart _ _ => true
  | .admission region _ => decide (region < 4)
  | .refillRequest region queues => decide (region < 4) && (queues.all fun q => decide (q < 16384))
  | .refillDataArrived queue _ => decide (queue < 16384)
  | .pointerFetchDone die pool => decide (die < 2) && decide (pool < 4)
  | .pointerWritebackDone die pool => decide (die < 2) && decide (pool < 4)
  | .txSelect port => decide (port < 1024)
  | .txUnderrun port _ => decide (port < 1024)
  | .txFrameEnd port => decide (port < 1024)
  | .portDrainStep port => decide (port < 1024)
  | .shaperTick => true
  | .meterTick => true
  | .gateEntryChange port => decide (port < 1024)
  | .gateTakeover port => decide (port < 1024)
  | .queueSample port => decide (port < 1024)
  | .beatBoundary => true
  | .tallyBankClose => true
  | .conservationCheck => true
  | .dumpUnitWrite stream _ => decide (stream < 6)
  | .ageSweepVisit _ => true
  | .learnInsert region => decide (region < 4)
  | .stashMove table idx => decide (table < 3) && decide (idx < if table = 0 then 16384 else 4096)
  | .shadowRewriteDone family idx => decide (family < 2) && decide (idx < 64)
  | .epochCleanupDone _ => true
  | .flushDone port => decide (port < 1024)
  | .objectFreed kind id => decide (kind < 3) && decide (id ≤ if kind = 0 then 131071 else if kind = 1 then 4095 else 16383)
  | .copyRebuildDone region => decide (region < 4)
  | .bellRateChange => true
  | .ppsEdge _ => true
  | .ref10mWindow _ => true
  | .sourceTimeout => true
  | .powerOnSecond => true
  | .powerOnSave => true
  | .microTrap engine cause => decide (engine < 5) && decide (1 ≤ cause) && decide (cause ≤ 4)
  | .patchLoad region => decide (region < 4)
  | .patchVerify region _ => decide (region < 4)
  | .patchDone region => decide (region < 4)
  | .patchFailed region => decide (region < 4)
  | .granaryUe region bank sub row _ =>
    decide (region < 4) && decide (bank < 64) && decide (sub < 4) && decide (row < 1280)
  | .granaryScrub region corrected ues =>
    decide (region < 4) && (corrected.all fun n => decide (n < 327680)) && ues.all fun e => decide (e.1 < 327680)
  | .tableScrub region _ _ => decide (region < 4)
  | .tableUe region _ _ => decide (region < 4)
  | .clusterRecovery cluster _ _ => decide (cluster < 16)
  | .fenceLift cluster _ => decide (cluster < 16)
  | .regionStateUe region word => decide (region < 4) && word.wf && word.isIn region
  | .glacierDescUe queue _ => decide (queue < 16384)
  | .poolAuditDone die => decide (die < 2)
  | .glacierStackFail stack => decide (stack < 4)
  | .d2dCrc flit => decide (flit.channel < 64)
  | .d2dWire channel wire => decide (channel < 64) && decide (wire < 132)
  | .d2dLinkDown dir => decide (dir < 2)
  | .d2dRetrain healthy => (healthy.all fun n => decide (n < 64))
  | .fecDegradeWindow port _ _ => decide (port < 1024)
  | .linkFault port => decide (port < 1024)
  | .stewardWatchdog engine => decide (engine < 5)
  | .clockLoss domain => decide (domain < 40) && decide (domain ≠ 37)
  | .referenceLossTimeout => true
  | .thermalWarn sensor _ => decide (sensor < 29)
  | .thermalTrip sensor _ => decide (sensor < 29)
  | .voltageOor rail _ => decide (rail < 8)
  | .cmdBufUe src q _ => src.wf && decide (q < 16)
  | .injectionPeriod detector _ => decide (detector < 27)
  | .riwenCommand h _ => h.wf
  | .riwenReply h _ => h.wf
  | .riwenEvent h _ => h.wf
  | .bell h _ _ => h.wf
  | .delayReq h _ _ => h.wf
  | .delayResp h _ _ _ _ _ => h.wf
  | .hello h segment _ bitmap => h.wf && decide (bitmap.length = 512) && decide (segment < 4)
  | .prepare h _ _ => h.wf
  | .vote h _ segment _ bitmap => h.wf && decide (bitmap.length = 512) && decide (segment < 4)
  | .commit h _ _ => h.wf
  | .commitAck h _ => h.wf
  | .abort h _ cause => h.wf && decide (cause < 5)
  | .linkAlarm h originDev originPort _ cause _ hops => 
    h.wf && decide (originDev < 16384) && decide (originPort < 1024) && decide (cause < 2) && decide (hops < 256)
  | .tallySummary h _ => h.wf
  | .voteDeadline => true
  | .activationDeadline => true
  | .standbyAckTimeout => true
  | .commandResend ftag => decide (ftag < 4096)
  | .managerLost => true
  | .standbyTakeover => true
  | .alarmRepeat port => decide (port < 1024)
  | .remoteDownExpiry port => decide (port < 1024)
  | .wtrExpiry group => decide (group < 256)
  | .vauxApplied => true
  | .vauxRemoved => true
  | .coreRailsInRange _ => true
  | .resetN => true
  | .resetHoldEnd => true
  | .perstN => true
  | .functionLevelReset fn => decide (fn < 16)
  | .stageClocksDone primary standby => decide (primary.length = 17) && decide (standby.length = 17)
  | .stageCentralDone => true
  | .stageRegionsDone => true
  | .stageGlacierDone trained => decide (trained.length = 4)
  | .stageD2dDone channels => decide (channels.length = 64)
  | .stageLanesDone chiplets => decide (chiplets.length = 8)
  | .imageRestartTimer => true
  | .dieReady trained => decide (trained.die < 2)
  | .avsStep _ => true
  | .clockWake branch => branch.wf
  | .branchStop => true
  | .prbsCheckerLock lane => decide (lane < 1024)
  | .prbsLockLost lane _ _ => decide (lane < 1024)
  | .coefficientRequest lane _ _ => decide (lane < 1024)
  | .hostReceiveWrite fn _ => decide (fn < 16)
  | .slotEraseDone slot => decide (slot < 2)
  | .referenceRestored => true
  | .pcieLinkUp => true
  | .allocatorCountRecomputed region => decide (region < 4)

end Sys2Proof
end

