-- ==== Sys2Proof/Safety.lean ====
section
/-!
DEFINITION. The terms that claims about the block use: a command that its opcode's own action meets, a row that
completes, the reply that a row leaves, the parts of the state for saying what a row does not change, and the invariants.
-/

namespace Sys2Proof.Machine

/-- The packet's turn has come, it passes every check of R335 as opcode `op`, and its unit is neither stopped nor faulted: the
opcode's own action meets it. -/
def State.takes (s : State) (op : Nat) (c : Cmd) : Bool :=
  s.pwr.ready && s.turn c && (s.firstFail op c).isNone && !s.targetStopped c && !s.unitFault c

/-- The opcode and the packet of a row by which a command packet takes effect; none for an event. -/
def rowPacket : Instr → Option (Nat × Cmd)
  | .identify c => some (0x0101, c)
  | .behaviourArm c => some (0x0102, c)
  | .behaviourCommit c => some (0x0102, c)
  | .behaviourDisarm c => some (0x0102, c)
  | .nop c => some (0x0103, c)
  | .barrier c => some (0x0104, c)
  | .queueConfig c => some (0x0105, c)
  | .epochStatus c => some (0x0106, c)
  | .activate c => some (0x0107, c)
  | .parishActivate c => some (0x0107, c)
  | .epochAbandon c => some (0x0108, c)
  | .functionRights c => some (0x0109, c)
  | .eventConfig c => some (0x010A, c)
  | .hostRingConfig c => some (0x010B, c)
  | .hostCodeMap c => some (0x010C, c)
  | .laneConfig c => some (0x0201, c)
  | .laneStatus c => some (0x0202, c)
  | .laneTxEq c => some (0x0203, c)
  | .laneRxEq c => some (0x0204, c)
  | .laneFomRead c => some (0x0205, c)
  | .prbsConfig c => some (0x0206, c.cmd)
  | .prbsRead c _ _ => some (0x0207, c)
  | .laneRetrain c => some (0x0208, c)
  | .portConfig c => some (0x0210, c)
  | .portDelete c => some (0x0211, c)
  | .portStatus c => some (0x0212, c)
  | .macStatsRead c => some (0x0213, c.cmd)
  | .portFcConfig c => some (0x0214, c)
  | .portTsCal c => some (0x0215, c)
  | .parserPortConfig c => some (0x0301, c)
  | .parseStateWrite c => some (0x0302, c)
  | .parseTransWrite c => some (0x0303, c)
  | .parseRead c => some (0x0304, c)
  | .patternWrite c => some (0x0305, c)
  | .rangeWrite c => some (0x0306, c)
  | .keyProfileWrite c => some (0x0307, c)
  | .ruleWrite c => some (0x0308, c)
  | .ruleDelete c => some (0x0309, c)
  | .ruleRead c => some (0x030A, c)
  | .parserStatsRead c => some (0x030B, c)
  | .tblPartition c => some (0x0401, c)
  | .emInsert c => some (0x0402, c)
  | .emDelete c => some (0x0403, c)
  | .lpmInsert c => some (0x0404, c)
  | .lpmDelete c => some (0x0405, c)
  | .tblSearch c => some (0x0406, c)
  | .tblNext c => some (0x0407, c)
  | .tblFlush c => some (0x0408, c)
  | .tblObjWrite c => some (0x0409, c)
  | .tblObjDelete c => some (0x040A, c)
  | .tblObjStatus c => some (0x040B, c)
  | .ecmpMemberWrite c => some (0x040C, c)
  | .tblPortConfig c => some (0x040D, c)
  | .tblGlobalConfig c => some (0x040E, c)
  | .emKeyProfileWrite c => some (0x040F, c)
  | .tblStatus c => some (0x0410, c)
  | .bufRegionConfig c => some (0x0501, c)
  | .bufPortConfig c => some (0x0502, c)
  | .bufQueueConfig c => some (0x0503, c)
  | .wredProfileWrite c => some (0x0504, c)
  | .glacierQuotaConfig c => some (0x0505, c)
  | .bufRegionStatus c => some (0x0506, c)
  | .queueStatus c => some (0x0507, c)
  | .bufGlacierStatus c => some (0x0508, c)
  | .schedPortConfig c => some (0x0601, c)
  | .schedQueueConfig c => some (0x0602, c)
  | .gateListWrite c => some (0x0603, c)
  | .gateListRead c => some (0x0604, c)
  | .gateActivate c => some (0x0605, c)
  | .gateCancel c => some (0x0606, c)
  | .gateStatus c => some (0x0607, c)
  | .meterConfig c => some (0x0608, c)
  | .meterRead c => some (0x0609, c)
  | .schedQueueStatus c => some (0x060A, c)
  | .timeStatus c => some (0x0701, c)
  | .bellConfig c => some (0x0702, c)
  | .timeSourceConfig c => some (0x0703, c)
  | .timeAdjustStep c => some (0x0704, c)
  | .timeAdjustSlew c => some (0x0704, c)
  | .timeAdjustFreq c => some (0x0704, c)
  | .timeAdjustSet c => some (0x0704, c)
  | .timePpsLabel c => some (0x0705, c)
  | .tallyConfig c => some (0x0801, c)
  | .dumpRingConfig c => some (0x0802, c)
  | .tallyPortRead c => some (0x0803, c)
  | .pcConfig c => some (0x0804, c)
  | .pcRead c => some (0x0805, c)
  | .rateConfig c => some (0x0806, c)
  | .rateRead c => some (0x0807, c)
  | .sampleConfig c => some (0x0808, c)
  | .mirrorConfig c => some (0x0809, c)
  | .errStatus c => some (0x0901, c)
  | .errInjectCancel c => some (0x0902, c)
  | .errInjectOnce c => some (0x0902, c)
  | .errInjectPeriodic c => some (0x0902, c)
  | .errInjectArmed c => some (0x0902, c)
  | .errConfig c => some (0x0903, c)
  | .errLogRead c => some (0x0904, c)
  | .stewardStatus c => some (0x0A01, c)
  | .microcodeLoadBegin c => some (0x0A02, c)
  | .microcodeLoadData c => some (0x0A02, c)
  | .microcodeLoadEnd c => some (0x0A02, c)
  | .microcodeLoadFromSlot c => some (0x0A02, c)
  | .stewardPatch c => some (0x0A03, c)
  | .stewardTraceRead c => some (0x0A04, c)
  | .parishConfig c => some (0x0B01, c)
  | .parishStatus c => some (0x0B02, c)
  | .relayConfig c => some (0x0B03, c)
  | .protectGroupWrite c => some (0x0B04, c)
  | .watchSlotWrite c => some (0x0B04, c)
  | .parishMemberRead c => some (0x0B05, c)
  | .powerStatus c => some (0x0C01, c)
  | .thermalConfig c => some (0x0C02, c)
  | .clockStatus c => some (0x0C03, c)
  | .keepRunning c => some (0x0C04, c)
  | .allowStop c => some (0x0C04, c)
  | .dieHold c => some (0x0C04, c)
  | .dieRelease c => some (0x0C04, c)
  | .avsConfig c => some (0x0C05, c)
  | .journalRead c => some (0x0D01, c)
  | .journalAppend c => some (0x0D02, c)
  | .imageWriteBegin c => some (0x0D03, c)
  | .imageWriteData c => some (0x0D03, c)
  | .imageWriteFinish c => some (0x0D03, c)
  | .imageSelect c => some (0x0D04, c)
  | .imageStatus c => some (0x0D05, c)
  | .cmdDoorbell _ _ _ => none
  | .hostTxDoorbell _ _ => none
  | .adminCmdEnable _ _ => none
  | .registerWrite _ _ _ => none
  | .cmdFifo _ => none
  | .rplFifo => none
  | .evtFifo => none
  | .resync _ => none
  | .go _ => none
  | .commandFetch _ _ _ => none
  | .mailboxCommandTake => none
  | .commandDispatch _ _ => none
  | .commandComplete _ _ _ => none
  | .atBeatBoundary _ _ _ => none
  | .replyWrite _ _ _ => none
  | .eventDelivery _ _ _ => none
  | .hostTxDescriptor _ _ _ => none
  | .signalDetected _ => none
  | .negotiationResolved _ _ => none
  | .negTimeout _ => none
  | .trainingDone _ _ => none
  | .trainTimeout _ => none
  | .alignLock _ _ _ _ _ => none
  | .alignTimeout _ => none
  | .signalLost _ _ => none
  | .fomWindowEnd _ _ _ => none
  | .rxFrameStart _ => none
  | .rxFrameEnd _ _ _ _ => none
  | .pauseTimerExpiry _ _ => none
  | .pauseWdFired _ _ => none
  | .pauseWdEnded _ _ => none
  | .xoffRefresh _ _ => none
  | .parseStart _ _ => none
  | .admission _ _ => none
  | .refillRequest _ _ => none
  | .refillDataArrived _ _ => none
  | .pointerFetchDone _ _ => none
  | .pointerWritebackDone _ _ => none
  | .txSelect _ => none
  | .txUnderrun _ _ => none
  | .txFrameEnd _ => none
  | .portDrainStep _ => none
  | .shaperTick => none
  | .meterTick => none
  | .gateEntryChange _ => none
  | .gateTakeover _ => none
  | .queueSample _ => none
  | .beatBoundary => none
  | .tallyBankClose => none
  | .conservationCheck => none
  | .dumpUnitWrite _ _ => none
  | .ageSweepVisit _ => none
  | .learnInsert _ => none
  | .stashMove _ _ => none
  | .shadowRewriteDone _ _ => none
  | .epochCleanupDone _ => none
  | .flushDone _ => none
  | .objectFreed _ _ => none
  | .copyRebuildDone _ => none
  | .bellRateChange => none
  | .ppsEdge _ => none
  | .ref10mWindow _ => none
  | .sourceTimeout => none
  | .powerOnSecond => none
  | .powerOnSave => none
  | .microTrap _ _ => none
  | .patchLoad _ => none
  | .patchVerify _ _ => none
  | .patchDone _ => none
  | .patchFailed _ => none
  | .granaryUe _ _ _ _ _ => none
  | .granaryScrub _ _ _ => none
  | .tableScrub _ _ _ => none
  | .tableUe _ _ _ => none
  | .clusterRecovery _ _ _ => none
  | .fenceLift _ _ => none
  | .regionStateUe _ _ => none
  | .glacierDescUe _ _ => none
  | .poolAuditDone _ => none
  | .glacierStackFail _ => none
  | .d2dCrc _ => none
  | .d2dWire _ _ => none
  | .d2dLinkDown _ => none
  | .d2dRetrain _ => none
  | .fecDegradeWindow _ _ _ => none
  | .linkFault _ => none
  | .stewardWatchdog _ => none
  | .clockLoss _ => none
  | .referenceLossTimeout => none
  | .thermalWarn _ _ => none
  | .thermalTrip _ _ => none
  | .voltageOor _ _ => none
  | .cmdBufUe _ _ _ => none
  | .injectionPeriod _ _ => none
  | .riwenCommand _ _ => none
  | .riwenReply _ _ => none
  | .riwenEvent _ _ => none
  | .bell _ _ _ => none
  | .delayReq _ _ _ => none
  | .delayResp _ _ _ _ _ _ => none
  | .hello _ _ _ _ => none
  | .prepare _ _ _ => none
  | .vote _ _ _ _ _ => none
  | .commit _ _ _ => none
  | .commitAck _ _ => none
  | .abort _ _ _ => none
  | .linkAlarm _ _ _ _ _ _ _ => none
  | .tallySummary _ _ => none
  | .voteDeadline => none
  | .activationDeadline => none
  | .standbyAckTimeout => none
  | .commandResend _ => none
  | .managerLost => none
  | .standbyTakeover => none
  | .alarmRepeat _ => none
  | .remoteDownExpiry _ => none
  | .wtrExpiry _ => none
  | .vauxApplied => none
  | .vauxRemoved => none
  | .coreRailsInRange _ => none
  | .resetN => none
  | .resetHoldEnd => none
  | .perstN => none
  | .functionLevelReset _ => none
  | .stageClocksDone _ _ => none
  | .stageCentralDone => none
  | .stageRegionsDone => none
  | .stageGlacierDone _ => none
  | .stageD2dDone _ => none
  | .stageLanesDone _ => none
  | .imageRestartTimer => none
  | .dieReady _ => none
  | .avsStep _ => none
  | .clockWake _ => none
  | .branchStop => none
  | .prbsCheckerLock _ => none
  | .prbsLockLost _ _ _ => none
  | .coefficientRequest _ _ _ => none
  | .hostReceiveWrite _ _ => none
  | .slotEraseDone _ => none
  | .referenceRestored => none
  | .pcieLinkUp => none
  | .allocatorCountRecomputed _ => none

/-- The row answers a next state, and it satisfies `P`. -/
def Completes (i : Instr) (s : State) (P : State → Prop) : Prop := ∃ t, exec i s = .next t ∧ P t

/-- The result that the row leaves for its command: this status and these reply words, in the beat of `t` (R334). -/
def Replied (s t : State) (c : Cmd) (status : Nat) (words : List Word) : Prop :=
  t.cif.results = s.cif.results ++ [t.mkReply c status words false]

/-- The command left no result of its own: its final reply comes later. -/
def NoReply (s t : State) : Prop := t.cif.results = s.cif.results

/-- The parts of the state, for saying what a row leaves unchanged. -/
inductive Part where
  | pending | free | out | nextPkt | lanes | ports | queues | parseQ | riwenQ | arrivals | parse | tbl | regions
  | glaciers | quotas | meters | time | tally | perf | stw | err | parish | aon | pwr
  | flights | nextTurn | results | funcs | rights | mgmtPriv | dests | holds | codeMap | epochs | ignoredWrites | pcieUp
  deriving DecidableEq, Repr

/-- The part is the same in both states; `tally` is all of chapter 09 but the performance counters. -/
def Part.same (p : Part) (s t : State) : Prop :=
  match p with
  | .pending => t.pending = s.pending
  | .free => t.free = s.free
  | .out => t.out = s.out
  | .nextPkt => t.nextPkt = s.nextPkt
  | .lanes => t.lanes = s.lanes
  | .ports => t.ports = s.ports
  | .queues => t.queues = s.queues
  | .parseQ => t.parseQ = s.parseQ
  | .riwenQ => t.riwenQ = s.riwenQ
  | .arrivals => t.arrivals = s.arrivals
  | .parse => t.parse = s.parse
  | .tbl => t.tbl = s.tbl
  | .regions => t.regions = s.regions
  | .glaciers => t.glaciers = s.glaciers
  | .quotas => t.quotas = s.quotas
  | .meters => t.meters = s.meters
  | .time => t.time = s.time
  | .tally => { t.tally with perf := [] } = { s.tally with perf := [] }
  | .perf => t.tally.perf = s.tally.perf
  | .stw => t.stw = s.stw
  | .err => t.err = s.err
  | .parish => t.parish = s.parish
  | .aon => t.aon = s.aon
  | .pwr => t.pwr = s.pwr
  | .flights => t.cif.flights = s.cif.flights
  | .nextTurn => t.cif.nextTurn = s.cif.nextTurn
  | .results => t.cif.results = s.cif.results
  | .funcs => t.cif.funcs = s.cif.funcs
  | .rights => t.cif.rights = s.cif.rights
  | .mgmtPriv => t.cif.mgmtPriv = s.cif.mgmtPriv
  | .dests => t.cif.dests = s.cif.dests
  | .holds => t.cif.holds = s.cif.holds
  | .codeMap => t.cif.codeMap = s.cif.codeMap
  | .epochs => t.cif.epochs = s.cif.epochs
  | .ignoredWrites => t.cif.ignoredWrites = s.cif.ignoredWrites
  | .pcieUp => t.cif.pcieUp = s.cif.pcieUp

/-- From `s` to `t` no part but the listed ones changes. -/
def Changes (ps : List Part) (s t : State) : Prop := ∀ p : Part, p ∉ ps → p.same s t

/-- Every object of the table but those numbered in `ks` is as it was. -/
def SameBut {α : Type} (ks : List Nat) (t t' : Tab α) : Prop := ∀ k, k ∉ ks → tget? t' k = tget? t k

/-- No injected pattern waits for an access of a detector's instance. -/
def State.noPattern (s : State) (det inst : Nat) : Prop := ∀ j ∈ s.err.injections, j.det = det → j.inst = inst → j.due = false

/-- The operating point stays inside its legal range: the driven code and both limits do not pass 100, and the floor does
not pass the ceiling (R438). -/
def State.VidInv (s : State) : Prop :=
  s.pwr.vid.toNat ≤ 100 ∧ s.pwr.floor.toNat ≤ s.pwr.ceiling.toNat ∧ s.pwr.ceiling.toNat ≤ 100

/-- A beat rate that the device accepts: 10 to 10,000 beats a second, a divisor of 10⁹ (R263). -/
def legalBeats (b : Nat) : Prop := 10 ≤ b ∧ b ≤ 10000 ∧ 1000000000 % b = 0

/-- The beat rate in force and the one that waits are legal (R263). -/
def State.BeatInv (s : State) : Prop :=
  legalBeats s.time.beats.toNat ∧ ∀ b g, s.time.pendingB = some (b, g) → legalBeats b.toNat

end Sys2Proof.Machine
end

