-- ==== Sys2Proof/Certificates/Slice0/Obligations.lean ====
section
/-!
DEFINITION. The statements for the provers.
-/

section

open Sys2Proof Sys2Proof.Machine

/-! ### Chapter 02: lanes -/

/-- LANE_CONFIG with legal fields completes on every lane (R63): the lane holds what was written, but that on a lane other
than its port's lowest the port-wide fields keep their values; the write of the thresholds clears both windows.
The reads and the equaliser writes of a lane complete with the values of Tables 2-6, 2-8 and 2-9: LANE_STATUS (R64),
LANE_TX_EQ (R66), LANE_RX_EQ (R67), LANE_FOM_READ (R68). The values that an equaliser holds before its first write or window are the
model's (DESIGN CHOICE: log entry 39).
PRBS_CONFIG, PRBS_READ and LANE_RETRAIN complete (R59 to R61, R65, R69). That LANE_RETRAIN begins the run of failed trainings anew
is the model's choice (DESIGN CHOICE: log entry 168), and so is its OK without effect on a lane of no configured port (log entry 183).
The rate code of a lane under PRBS and what its checker compared, which the row tells, are the model's choices too (DESIGN CHOICE: log
entries 167, 40). -/
def Obligations.LaneCommandsComplete : Prop :=
  (∀ (c : Cmd) (s : State), s.takes 0x0201 c = true →
    let n := laneOf c
    let w1 := wd c.words 1
    let w2 := wd c.words 2
    let other := (s.lanePort? n).any fun p => decide (p ≠ n)
    fld w1 8 3 < 5 → fld w2 16 16 ≤ 8000 →
    (other = true → bit w1 0 = false ∧ bit w1 1 = false ∧ bit w1 2 = false ∧ fld w1 8 3 = 0 ∧ fld w1 16 5 = 0) →
    (other = false → bit w1 0 = true → fld w1 16 5 ≠ 0) →
    (other = false → bit w1 0 = false → ∀ v, s.port? n = some v → comboOk v.width.toNat (fld w1 8 3) = true) →
    Completes (.laneConfig c) s fun t =>
      Changes [.free, .out, .lanes, .ports, .queues, .regions, .glaciers, .quotas, .tally, .perf, .err, .parish, .results, .holds] s t ∧
      Replied s t c stOk [] ∧
      (t.lane n).anEnable = (if other then (s.lane n).anEnable else bit w1 0) ∧
      (t.lane n).trainEnable = (if other then (s.lane n).trainEnable else bit w1 1) ∧
      (t.lane n).fallbackEnable = (if other then (s.lane n).fallbackEnable else bit w1 2) ∧
      (t.lane n).forcedRate.toNat = (if other then (s.lane n).forcedRate.toNat else fld w1 8 3) ∧
      (t.lane n).rateEnable.toNat = (if other then (s.lane n).rateEnable.toNat else fld w1 16 5) ∧
      (t.lane n).rxPolAuto = bit w1 3 ∧ (t.lane n).rxPolForce = bit w1 4 ∧ (t.lane n).txPolInvert = bit w1 5 ∧
      (t.lane n).cdrBw.toNat = fld w1 6 2 ∧
      (t.lane n).fomWarn.toNat = fld w2 0 16 ∧ (t.lane n).fomHyst.toNat = fld w2 16 16 ∧
      (t.lane n).lowWindows = 0 ∧ (t.lane n).okWindows = 0) ∧
  (∀ (c : Cmd) (s : State),
    let n := laneOf c
    let l := s.lane n
    let w0 := wd c.words 0
    let w1 := wd c.words 1
    (s.takes 0x0202 c = true → Completes (.laneStatus c) s fun t => Changes [.lanes, .results] s t ∧
      (∃ a b, Replied s t c stOk [a, b] ∧ fld a 0 4 = (s.laneState n).code ∧ bit a 14 = l.signal ∧ bit a 15 = l.lock ∧
        fld a 16 16 = l.fom.toNat ∧ fld b 0 16 = l.attempts.toNat) ∧
      t.lane n = { l with attempts := 0 } ∧ SameBut [n] s.lanes t.lanes) ∧
    (s.takes 0x0203 c = true → bit w1 31 = false → fld w1 0 5 ≤ 16 → fld w1 8 5 ≤ 24 → fld w1 16 4 ≤ 12 →
      Completes (.laneTxEq c) s fun t => Changes [.lanes, .results] s t ∧
        Replied s t c stOk [txEqWord (t.lane n)] ∧ (t.lane n).preMag.toNat = fld w1 0 5 ∧
        (t.lane n).postMag.toNat = fld w1 8 5 ∧ (t.lane n).amp.toNat = fld w1 16 4 ∧
        SameBut [n] s.lanes t.lanes) ∧
    (s.takes 0x0203 c = true → w1 = 0x80000000#32 →
      Completes (.laneTxEq c) s fun t => Replied s t c stOk [txEqWord l] ∧ Changes [.results] s t) ∧
    (s.takes 0x0204 c = true → bit w0 31 = false → fld w0 20 2 = 2 → rxEqOk (rxEqOf c.words) = true →
      Completes (.laneRxEq c) s fun t => Changes [.lanes, .results] s t ∧
        Replied s t c stOk (pack [(0, n), (20, 2)] :: rxEqWords (rxEqOf c.words)) ∧
        t.lane n = { l with rxMode := 2, eq := rxEqOf c.words } ∧ SameBut [n] s.lanes t.lanes) ∧
    (s.takes 0x0204 c = true → bit w0 31 = false → fld w0 20 2 < 2 →
      Completes (.laneRxEq c) s fun t => Changes [.lanes, .results] s t ∧
        Replied s t c stOk (pack [(0, n), (20, fld w0 20 2)] :: rxEqWords l.eq) ∧
        t.lane n = { l with rxMode := BitVec.ofNat 2 (fld w0 20 2) } ∧ SameBut [n] s.lanes t.lanes) ∧
    (s.takes 0x0204 c = true → bit w0 31 = true → fld w0 20 2 = 0 →
      Completes (.laneRxEq c) s fun t => Changes [.results] s t ∧
        Replied s t c stOk (pack [(0, n), (20, l.rxMode.toNat)] :: rxEqWords l.eq)) ∧
    (s.takes 0x0205 c = true → 1 ≤ fld w0 10 8 → n % 128 + fld w0 10 8 ≤ 128 →
      Completes (.laneFomRead c) s fun t =>
        (∃ ws, Replied s t c stOk ws ∧ ws.length = (fld w0 10 8 + 1) / 2 ∧
          ∀ i, i < fld w0 10 8 → fld (wd ws (i / 2)) (16 * (i % 2)) 16 = (s.lane (n + i)).fom.toNat) ∧
        Changes [.results] s t)) ∧
  (∀ (c : Cmd) (s : State),
    let n := laneOf c
    let l := s.lane n
    let w1 := wd c.words 1
    (∀ bits errs, s.takes 0x0206 c = true → patternBad (fld w1 0 4) (s.testRate n) = false →
      patternBad (fld w1 4 4) (s.testRate n) = false →
      (∀ p, s.lanePort? n = some p → (s.port p).adminUp = true → fld w1 0 4 = 0 ∧ fld w1 4 4 = 0) →
      Completes (.prbsConfig ⟨c, bits, errs⟩) s fun t => Changes [.out, .lanes, .ports, .results] s t ∧
        Replied s t c stOk [] ∧ (t.lane n).genPattern.toNat = fld w1 0 4 ∧ (t.lane n).chkPattern.toNat = fld w1 4 4 ∧
        (t.lane n).prbsBits = (l.count bits errs).prbsBits ∧ (t.lane n).prbsErrs = (l.count bits errs).prbsErrs ∧
        t.out = s.out ++ (if bit w1 8 = true ∧ fld w1 0 4 ≠ 0 then [.prbsInvert n] else []) ∧
        ∀ k, k ≠ n → (t.lane k).genPattern = (s.lane k).genPattern ∧ (t.lane k).chkPattern = (s.lane k).chkPattern ∧
          (t.lane k).prbsBits = (s.lane k).prbsBits ∧ (t.lane k).prbsErrs = (s.lane k).prbsErrs) ∧
    (∀ bits errs, s.takes 0x0207 c = true → Completes (.prbsRead c bits errs) s fun t => Changes [.lanes, .results] s t ∧
        let e := if l.prbsLock then l.prbsErrs.toNat + errs else l.prbsErrs.toNat
        let b := if l.prbsLock then l.prbsBits.toNat + bits else l.prbsBits.toNat
        (∃ w, Replied s t c stOk (w :: wordsOf (b % 2 ^ 64) 2 ++ wordsOf (e % 2 ^ 48) 2) ∧ bit w 0 = l.prbsLock) ∧
        (bit (wd c.words 0) 31 = true →
          (t.lane n).prbsBits = 0 ∧ (t.lane n).prbsErrs = 0 ∧ (t.lane n).prbsSticky = false) ∧
        SameBut [n] s.lanes t.lanes) ∧
    (s.takes 0x0208 c = true → Completes (.laneRetrain c) s fun t =>
        Replied s t c stOk [] ∧
        (∀ p, s.lanePort? n = some p → (s.port p).state ≠ .disabled → (s.port p).state ≠ .test →
          (t.port p).state = .waitSignal ∧ (t.port p).lastCause = 8 ∧ (t.port p).withdrawn = 0 ∧
          (t.port p).trainFails = 0) ∧
        ((s.lanePort? n = none ∨ ∃ p, s.lanePort? n = some p ∧
            ((s.port p).state = .disabled ∨ (s.port p).state = .test)) → Changes [.results] s t)))

/-! ### Chapter 03: ports -/

/-- PORT_CONFIG with legal fields completes for a new and for a configured port (R72, R96, R99): the port holds the fields
of Table 3-7. A new port that is enabled is in WAIT_SIGNAL or TEST, in WAIT_SIGNAL where no lane of it runs PRBS; a port that is not
enabled is in DISABLED or TEST. Which of them a port takes while one of its lanes runs PRBS is the model's choice (DESIGN CHOICE: log
entry 169).
PORT_DELETE completes on a configured port that is administratively down and empty: the port is gone, its queues hold their reset
values, its account is kept (R72, R300), and its lanes go to DISABLED without signal, with no measurement (R45, R56). A lane that runs
PRBS is the exception: it goes on doing so in TEST, which is the model's choice (DESIGN CHOICE: log entry 186). That no other port lies
over the lanes is R70's rule for every configured port. -/
def Obligations.PortConfigAndDeleteComplete : Prop :=
  (∀ (c : Cmd) (s : State), s.takes 0x0210 c = true →
    let p := portOf c
    let w1 := wd c.words 1
    let w := fld w1 0 4
    let maxF := fld (wd c.words 2) 0 14
    (w = 1 ∨ w = 2 ∨ w = 4 ∨ w = 8) → fld w1 6 2 ≠ 3 → 1 ≤ fld w1 8 7 → fld w1 8 7 ≤ 64 → 64 ≤ maxF → p % w = 0 →
    ((s.lane p).anEnable = false → comboOk w (s.lane p).forcedRate.toNat = true) → s.overlaps p w = false →
    (s.port? p = none → 104 ≤ s.sharedSize (laneRegion p)) →
    (∀ v, s.port? p = some v → (v.adminUp = true → v.width.toNat = w) ∧ (v.riwenEn = true → 4134 ≤ maxF)) →
    Completes (.portConfig c) s fun t =>
      Changes [.free, .out, .lanes, .ports, .queues, .regions, .glaciers, .quotas, .tally, .perf, .err, .parish, .results, .holds] s t ∧
      Replied s t c stOk [] ∧
      ∃ v, t.port? p = some v ∧ v.width.toNat = w ∧ v.adminUp = bit w1 4 ∧ v.ctEnable = bit w1 5 ∧
        v.fcMode.toNat = fld w1 6 2 ∧ v.ctBase.toNat = fld w1 8 7 ∧ v.maxFrame.toNat = maxF ∧
        (s.port? p = none → v.ctThresh.toNat = fld w1 8 7) ∧
        (s.port? p = none → bit w1 4 = true → v.state = .waitSignal ∨ v.state = .test) ∧
        (s.port? p = none → bit w1 4 = true →
          (∀ l, p ≤ l → l < p + w → (s.lane l).genPattern = 0 ∧ (s.lane l).chkPattern = 0) → v.state = .waitSignal) ∧
        (bit w1 4 = false → v.state = .disabled ∨ v.state = .test)) ∧
  (∀ (c : Cmd) (s : State) (v : Port), s.takes 0x0211 c = true →
    let p := portOf c
    s.port? p = some v → v.adminUp = false → s.portEmpty p = true →
    Completes (.portDelete c) s fun t => Changes [.lanes, .ports, .queues, .tally, .pwr, .results] s t ∧
      Replied s t c stOk [] ∧ t.port? p = none ∧ SameBut [p] s.ports t.ports ∧
      (∀ i, i < 16 → t.queue (16 * p + i) = {}) ∧
      (∀ l, p ≤ l → l < p + v.width.toNat → s.overlaps p v.width.toNat = false →
        ((s.lane l).genPattern = 0 → (s.lane l).chkPattern = 0 →
          t.laneState l = .disabled ∧ (t.lane l).signal = false ∧ (t.lane l).lock = false ∧ (t.lane l).fom = 0x8000) ∧
        (((s.lane l).genPattern ≠ 0 ∨ (s.lane l).chkPattern ≠ 0) → t.laneState l = .test ∧ t.lane l = s.lane l)) ∧
      tget? t.tally.gone p = some v)

/-- The reads of a port complete: PORT_STATUS (R101) and MAC_STATS_READ, whose CLEAR sets every statistic it returned to 0
and no other (R81, R102). That the row itself brings statistic 33 (R80) up to date, by its operand, is the model's inference (DEDUCED:
log entry 47).
PORT_FC_CONFIG and PORT_TS_CAL complete with legal values: the port holds what was written (R89, R91, R100, R103). -/
def Obligations.PortReadsAndSettingsComplete : Prop :=
  (∀ (c : Cmd) (s : State) (v : Port),
    let p := portOf c
    let w1 := wd c.words 1
    let first := fld w1 0 7
    let count := fld w1 8 7
    s.port? p = some v →
    (s.takes 0x0212 c = true → Completes (.portStatus c) s fun t =>
      (∃ a b d e, Replied s t c stOk [a, b, d, e] ∧ fld a 0 4 = v.state.code ∧ fld a 4 3 = v.rate.toNat ∧
        fld a 7 4 = v.width.toNat ∧ fld a 11 7 = v.ctThresh.toNat ∧ b.toNat = v.cleanCount.toNat ∧
        ∀ n, n < 8 → bit d n = v.paused s.time n ∧ bit d (16 + n) = (tget v.pause n {}).xoff) ∧
      Changes [.results] s t) ∧
    (∀ blocks, s.takes 0x0213 c = true → 1 ≤ count → first + count ≤ 79 →
      (∀ i ∈ v.macFrozen, i < first ∨ first + count ≤ i) → Completes (.macStatsRead ⟨c, blocks⟩) s fun t =>
      let m := if 33 ∈ v.macFrozen then v.mac else (stat40 v.mac 33 blocks).1
      (∃ ws, Replied s t c stOk ws ∧ ws.length = 2 * count ∧
        ∀ i, i < count → wd64 ws (2 * i) = (tget m (first + i) 0).toNat) ∧
      Changes [.ports, .perf, .results, .holds] s t ∧
      (∃ u, t.port? p = some u ∧ { u with mac := [] } = { v with mac := [] } ∧
        (bit w1 31 = false → u.mac = m) ∧
        (bit w1 31 = true →
          (∀ i, first ≤ i → i < first + count → tget u.mac i 0 = 0) ∧
          (∀ i, (i < first ∨ first + count ≤ i) → tget u.mac i 0 = tget m i 0))) ∧
      SameBut [p] s.ports t.ports)) ∧
  (∀ (c : Cmd) (s : State) (v : Port),
    let p := portOf c
    let w1 := wd c.words 1
    let w2 := wd c.words 2
    s.port? p = some v →
    (s.takes 0x0214 c = true → 1 ≤ fld w1 0 14 → fld w1 0 14 ≤ 10000 → 1 ≤ fld w1 14 10 → fld w1 14 10 ≤ 1000 →
      fld (wd c.words 4) 16 16 < fld (wd c.words 4) 0 16 →
      Completes (.portFcConfig c) s fun t => Changes [.out, .ports, .tally, .perf, .results, .holds] s t ∧
        Replied s t c stOk [] ∧
        ∃ u, t.port? p = some u ∧ u.wdTime.toNat = fld w1 0 14 ∧ u.wdRecovery.toNat = fld w1 14 10 ∧
          u.stormDrop = bit w1 24 ∧
          u.prioMap.toNat = fld w2 0 30 + fld (wd c.words 3) 0 18 * 2 ^ 30 ∧
          u.txQuanta.toNat = fld (wd c.words 4) 0 16 ∧ u.txRefresh.toNat = fld (wd c.words 4) 16 16 ∧
          u.pauseSa.toNat = (wd c.words 5).toNat + fld (wd c.words 6) 0 16 * 2 ^ 32) ∧
    (s.takes 0x0215 c = true → bit (wd c.words 0) 31 = false →
      -100000 ≤ signed 32 w1.toNat → signed 32 w1.toNat ≤ 100000 →
      -100000 ≤ signed 32 w2.toNat → signed 32 w2.toNat ≤ 100000 →
      Completes (.portTsCal c) s fun t => Changes [.ports, .results] s t ∧
        (∃ ws, Replied s t c stOk ([w1, w2] ++ ws) ∧ ws.length = 9) ∧
        t.port? p = some { v with rxAdj := w1, txAdj := w2 } ∧ SameBut [p] s.ports t.ports) ∧
    (s.takes 0x0215 c = true → bit (wd c.words 0) 31 = true → w1 = 0 → w2 = 0 →
      Completes (.portTsCal c) s fun t =>
        (∃ ws, Replied s t c stOk ([v.rxAdj, v.txAdj] ++ ws) ∧ ws.length = 9) ∧ Changes [.results] s t))

/-! ### Chapter 04: parsing and classification -/

/-- A change of a parsing object at once (EPOCH 0, no staged change of the object pending) completes: PARSER_PORT_CONFIG,
PARSE_STATE_WRITE, PARSE_TRANS_WRITE, PATTERN_WRITE, RANGE_WRITE, KEY_PROFILE_WRITE, RULE_WRITE and RULE_DELETE store what
their words say, in every region of the mask, and each takes one table sequence number (R126, R129 to R135). -/
def Obligations.ParserChangesCompleteAtOnce : Prop :=
  ∀ (c : Cmd) (s : State),
    let w0 := wd c.words 0
    let m := regionMask c
    let free (ch : ParseChange) := ∀ x ∈ s.parse.staged, x.2.meets ch = false
    let went (t : State) := Replied s t c stOk [] ∧ t.tbl.tsn = s.tbl.tsn.add 1
    epochOf c = 0 →
    (∀ v, s.takes 0x0301 c = true → s.port? (portOf c) = some v → fld (wd c.words 2) 0 8 ≠ 255 →
      fld (wd c.words 2) 8 2 ≠ 3 → free (.portCfg (portOf c) (wd c.words 2)) →
      Completes (.parserPortConfig c) s fun t => Changes [.ports, .parse, .tbl, .perf, .results, .epochs] s t ∧ went t ∧
        ∃ u, t.port? (portOf c) = some u ∧ u.startState.toNat = fld (wd c.words 2) 0 8 ∧
          u.plAction.toNat = fld (wd c.words 2) 8 2 ∧ u.keyProfile.toNat = fld (wd c.words 2) 10 4 ∧
          u.defClass.toNat = fld (wd c.words 2) 14 4 ∧ u.defQueue.toNat = fld (wd c.words 2) 18 4) ∧
    (let p := pstateOf (wd c.words)
     s.takes 0x0302 c = true → fld w0 0 8 ≠ 255 → p.lenFixed.toNat ≤ 512 → (1 ≤ p.minLen.toNat ∨ p.lenMode = false ∧ p.lenFixed = 0) → p.minLen.toNat ≤ 512 →
      p.tCount.toNat ≤ 16 → p.tBase.toNat + p.tCount.toNat ≤ 2048 → (∀ e ∈ p.extracts, e.2.width ≠ 3) →
      free (.pstate (fld w0 0 8) p) →
      Completes (.parseStateWrite c) s fun t =>
        Changes [.ports, .parse, .tbl, .perf, .results, .epochs] s t ∧ went t ∧ t.pstate (fld w0 0 8) = p) ∧
    (s.takes 0x0303 c = true → wd c.words 2 &&& ~~~ wd c.words 3 = 0 → (∀ tr, free (.ptrans (fld w0 0 11) tr)) →
      Completes (.parseTransWrite c) s fun t => Changes [.ports, .parse, .tbl, .perf, .results, .epochs] s t ∧ went t ∧
        ∃ tr, tget? t.parse.trans (fld w0 0 11) = some tr ∧ tr.value = wd c.words 2 ∧ tr.mask = wd c.words 3 ∧
          tr.next.toNat = fld (wd c.words 4) 0 8 ∧ tr.setFlags.toNat = fld (wd c.words 4) 8 8 ∧
          tr.valid = bit (wd c.words 4) 16) ∧
    (let p := patternOf c.words
     s.takes 0x0305 c = true → m ≠ 0 → p.len.toNat ≤ 16 → beyondLen p p.value = false → beyondLen p p.mask = false →
      p.value &&& ~~~ p.mask = 0 → (p.floating = true → p.startMin.toNat ≤ p.startMax.toNat) →
      free (.pattern m (fld w0 0 5) p) →
      Completes (.patternWrite c) s fun t => Changes [.ports, .parse, .tbl, .perf, .results, .epochs] s t ∧ went t ∧
        ∀ g, g < 4 → tget (t.classRegion g).patterns (fld w0 0 5) {} =
          if m.getLsbD g then p else tget (s.classRegion g).patterns (fld w0 0 5) {}) ∧
    (s.takes 0x0306 c = true → m ≠ 0 → fld (wd c.words 3) 0 16 ≤ fld (wd c.words 3) 16 16 →
      (∀ r, free (.range m (fld w0 0 6) r)) →
      Completes (.rangeWrite c) s fun t => Changes [.ports, .parse, .tbl, .perf, .results, .epochs] s t ∧ went t ∧
        ∀ g, g < 4 → m.getLsbD g = true →
          let r := tget (t.classRegion g).ranges (fld w0 0 6) {}
          r.source.toNat = fld (wd c.words 2) 0 6 ∧ r.enable = bit (wd c.words 2) 7 ∧
          r.low.toNat = fld (wd c.words 3) 0 16 ∧ r.high.toNat = fld (wd c.words 3) 16 16) ∧
    (s.takes 0x0307 c = true → m ≠ 0 → free (.profile m (fld w0 0 4) (profileOf c.words)) →
      Completes (.keyProfileWrite c) s fun t => Changes [.ports, .parse, .tbl, .perf, .results, .epochs] s t ∧ went t ∧
        ∀ g, g < 4 → m.getLsbD g = true → (t.classRegion g).profile (fld w0 0 4) = profileOf c.words) ∧
    (let r := ruleOf c.words
     s.takes 0x0308 c = true → m ≠ 0 → ruleRefused r = false →
      (fld r.act0 13 2 = 1 → s.destRefused (fld r.act2 0 2) (fld r.act2 2 20) 0 = none) →
      (∀ o, free (.rule m (fld w0 0 15) o)) →
      (bit w0 20 = false → ∀ g, g < 4 → m.getLsbD g = true → thas (s.classRegion g).rules (fld w0 0 15) = false) →
      Completes (.ruleWrite c) s fun t => Changes [.ports, .parse, .tbl, .perf, .results, .epochs] s t ∧ went t ∧
        ∀ g, g < 4 → tget? (t.classRegion g).rules (fld w0 0 15) =
          if m.getLsbD g then some r else tget? (s.classRegion g).rules (fld w0 0 15)) ∧
    (s.takes 0x0309 c = true → m ≠ 0 → (∀ o, free (.rule m (fld w0 0 15) o)) →
      (∀ g, g < 4 → m.getLsbD g = true → thas (s.classRegion g).rules (fld w0 0 15) = true) →
      Completes (.ruleDelete c) s fun t => Changes [.ports, .parse, .tbl, .perf, .results, .epochs] s t ∧ went t ∧
        ∀ g, g < 4 → tget? (t.classRegion g).rules (fld w0 0 15) =
          if m.getLsbD g then none else tget? (s.classRegion g).rules (fld w0 0 15))

/-- A change of a parsing object under an epoch changes no parsing object: it is staged under the epoch's slot, counts as a
change of the epoch and takes one table sequence number (R126, R168, R169, R353); a rule that the same epoch staged before for one of its
regions is staged there no more. -/
def Obligations.ParserChangesAreStagedUnderAnEpoch : Prop :=
  ∀ (c : Cmd) (s : State) (b : Bool),
    let w0 := wd c.words 0
    let m := regionMask c
    let e := epochOf c
    let own (ch : ParseChange) := ∀ x ∈ s.parse.staged, x.2.meets ch = true → s.epochSlot e = some x.1
    let went (t : State) (ch : ParseChange) := Replied s t c stOk [] ∧ t.tbl = { s.tbl with tsn := s.tbl.tsn.add 1 } ∧
      t.parse = { s.parse with
        staged := (s.parse.staged.filterMap fun x => if x.1 = b then (x.2.left ch).map fun y => (b, y) else some x) ++ [(b, ch)] } ∧
      t.ports = s.ports ∧
      ∃ x, t.epoch? e = some x ∧ x.slot = some b ∧ x.changes = (match s.epoch? e with | some y => y.changes | none => 0) + 1
    e ≠ 0 → s.slotFor e = .ok b →
    (∀ v, s.takes 0x0301 c = true → s.port? (portOf c) = some v → fld (wd c.words 2) 0 8 ≠ 255 →
      fld (wd c.words 2) 8 2 ≠ 3 → own (.portCfg (portOf c) (wd c.words 2)) →
      Completes (.parserPortConfig c) s fun t =>
        Changes [.ports, .parse, .tbl, .perf, .results, .epochs] s t ∧ went t (.portCfg (portOf c) (wd c.words 2))) ∧
    (s.takes 0x0305 c = true → m ≠ 0 → (patternOf c.words).len.toNat ≤ 16 →
      beyondLen (patternOf c.words) (patternOf c.words).value = false →
      beyondLen (patternOf c.words) (patternOf c.words).mask = false →
      (patternOf c.words).value &&& ~~~ (patternOf c.words).mask = 0 → (patternOf c.words).floating = false →
      own (.pattern m (fld w0 0 5) (patternOf c.words)) →
      Completes (.patternWrite c) s fun t =>
        Changes [.ports, .parse, .tbl, .perf, .results, .epochs] s t ∧ went t (.pattern m (fld w0 0 5) (patternOf c.words))) ∧
    (s.takes 0x0307 c = true → m ≠ 0 → own (.profile m (fld w0 0 4) (profileOf c.words)) →
      Completes (.keyProfileWrite c) s fun t =>
        Changes [.ports, .parse, .tbl, .perf, .results, .epochs] s t ∧ went t (.profile m (fld w0 0 4) (profileOf c.words))) ∧
    (let p := pstateOf (wd c.words)
     s.takes 0x0302 c = true → fld w0 0 8 ≠ 255 → p.lenFixed.toNat ≤ 512 → (1 ≤ p.minLen.toNat ∨ p.lenMode = false ∧ p.lenFixed = 0) → p.minLen.toNat ≤ 512 →
      p.tCount.toNat ≤ 16 → p.tBase.toNat + p.tCount.toNat ≤ 2048 → (∀ e ∈ p.extracts, e.2.width ≠ 3) →
      own (.pstate (fld w0 0 8) p) →
      Completes (.parseStateWrite c) s fun t =>
        Changes [.ports, .parse, .tbl, .perf, .results, .epochs] s t ∧ went t (.pstate (fld w0 0 8) p)) ∧
    (s.takes 0x0303 c = true → wd c.words 2 &&& ~~~ wd c.words 3 = 0 → (∀ tr, own (.ptrans (fld w0 0 11) tr)) →
      Completes (.parseTransWrite c) s fun t =>
        Changes [.ports, .parse, .tbl, .perf, .results, .epochs] s t ∧ ∃ tr, tr.value = wd c.words 2 ∧ tr.mask = wd c.words 3 ∧
        went t (.ptrans (fld w0 0 11) tr)) ∧
    (s.takes 0x0306 c = true → m ≠ 0 → fld (wd c.words 3) 0 16 ≤ fld (wd c.words 3) 16 16 →
      (∀ r, own (.range m (fld w0 0 6) r)) →
      Completes (.rangeWrite c) s fun t =>
        Changes [.ports, .parse, .tbl, .perf, .results, .epochs] s t ∧ ∃ r, r.low.toNat = fld (wd c.words 3) 0 16 ∧
        r.high.toNat = fld (wd c.words 3) 16 16 ∧ went t (.range m (fld w0 0 6) r)) ∧
    (s.takes 0x0308 c = true → m ≠ 0 → ruleRefused (ruleOf c.words) = false → bit w0 20 = true →
      fld (ruleOf c.words).act0 13 2 ≠ 1 → (∀ o, own (.rule m (fld w0 0 15) o)) →
      Completes (.ruleWrite c) s fun t =>
        Changes [.ports, .parse, .tbl, .perf, .results, .epochs] s t ∧ went t (.rule m (fld w0 0 15) (some (ruleOf c.words)))) ∧
    (s.takes 0x0309 c = true → m ≠ 0 → (∀ o, own (.rule m (fld w0 0 15) o)) →
      (∀ g, g < 4 → m.getLsbD g = true → s.ruleThere e g (fld w0 0 15) = true) →
      Completes (.ruleDelete c) s fun t =>
        Changes [.ports, .parse, .tbl, .perf, .results, .epochs] s t ∧ went t (.rule m (fld w0 0 15) none))

/-- The reads of chapter 04 complete: PARSE_READ returns what a parsing object holds (R135), RULE_READ a rule with its hits,
which CLEAR sets to 0 (R127), PARSER_STATS_READ the statistics of a port (R136). -/
def Obligations.ParserReadsComplete : Prop :=
  ∀ (c : Cmd) (s : State),
    let w0 := wd c.words 0
    let i := fld w0 16 11
    let r := s.classRegion (fld w0 28 2)
    (s.takes 0x0304 c = true → fld w0 0 3 = 0 → i ≤ 254 →
      Completes (.parseRead c) s fun t =>
        Replied s t c stOk ((s.pstate i).lengthWords ++ (s.pstate i).selectWords ++ (s.pstate i).extractWords) ∧
        Changes [.results] s t) ∧
    (s.takes 0x0304 c = true → fld w0 0 3 = 1 → let tr := s.ptrans i
      Completes (.parseRead c) s fun t =>
        (∃ a, Replied s t c stOk [tr.value, tr.mask, a] ∧ fld a 0 8 = tr.next.toNat ∧ fld a 8 8 = tr.setFlags.toNat ∧
          bit a 16 = tr.valid) ∧ Changes [.results] s t) ∧
    (s.takes 0x0304 c = true → fld w0 0 3 = 2 → i ≤ 31 → Completes (.parseRead c) s fun t =>
      Replied s t c stOk (tget r.patterns i {}).words ∧ Changes [.results] s t) ∧
    (s.takes 0x0304 c = true → fld w0 0 3 = 3 → i ≤ 63 → Completes (.parseRead c) s fun t =>
      (∃ a b, Replied s t c stOk [a, b] ∧ fld a 0 6 = (tget r.ranges i {}).source.toNat ∧
        bit a 7 = (tget r.ranges i {}).enable ∧ fld b 0 16 = (tget r.ranges i {}).low.toNat ∧
        fld b 16 16 = (tget r.ranges i {}).high.toNat) ∧ Changes [.results] s t) ∧
    (s.takes 0x0304 c = true → fld w0 0 3 = 4 → i ≤ 15 → Completes (.parseRead c) s fun t =>
      Replied s t c stOk (bytesToWords (r.profile i) 7) ∧ Changes [.results] s t) ∧
    (let rr := s.classRegion (fld w0 16 2)
     ∀ x, s.takes 0x030A c = true → tget? rr.rules (fld w0 0 15) = some x → x.hits.frozen = false → Completes (.ruleRead c) s fun t =>
      (∃ h, Replied s t c stOk (h :: (wordsOf x.value.toNat 20 ++ wordsOf x.mask.toNat 20 ++
        [x.act0, x.act1, x.act2, 0] ++ x.hits.words)) ∧ bit h 0 = true) ∧
      tget? (t.classRegion (fld w0 16 2)).rules (fld w0 0 15) = some (if bit w0 31 then { x with hits := {} } else x) ∧
      Changes [.results, .parse] s t) ∧
    (s.takes 0x030A c = true → tget? (s.classRegion (fld w0 16 2)).rules (fld w0 0 15) = none →
      Completes (.ruleRead c) s fun t =>
        (∃ h, Replied s t c stOk (h :: List.replicate 46 0) ∧ bit h 0 = false) ∧ Changes [.results] s t) ∧
    (∀ v, s.takes 0x030B c = true → s.port? (portOf c) = some v → v.parserFrozen = [] → Completes (.parserStatsRead c) s fun t =>
      Changes [.ports, .tally, .perf, .results, .holds] s t ∧
      (∃ ws, Replied s t c stOk ws ∧ ws.length = 14 ∧ ∀ k, k < 7 → wd64 ws (2 * k) = (tget v.parserStat k 0).toNat) ∧
      t.port? (portOf c) = some (if bit (wd c.words 1) 31 then { v with parserStat := [] } else v) ∧
      SameBut [portOf c] s.ports t.ports)

/-! ### Chapter 05: tables and learning -/

/-- The settings of the table engine complete with legal values and take one table sequence number each: TBL_PARTITION on
empty hash stores (R138), TBL_GLOBAL_CONFIG (R183), TBL_PORT_CONFIG (R182), EM_KEY_PROFILE_WRITE at once (R177);
TBL_STATUS reads (R184). That the first three take a sequence number is the model's inference (DEDUCED: log entry 70). -/
def Obligations.TableSettingsComplete : Prop :=
  ∀ (c : Cmd) (s : State),
    let w2 := wd c.words 2
    let w3 := wd c.words 3
    let w4 := wd c.words 4
    let went (t : State) := Replied s t c stOk [] ∧ t.tbl.tsn = s.tbl.tsn.add 1
    (s.takes 0x0401 c = true → epochOf c = 0 → fld w2 0 2 ≠ 3 → s.hashedEmpty = true →
      Completes (.tblPartition c) s fun t => went t ∧ t.tbl.profile.toNat = fld w2 0 2 ∧ t.tbl.seed0 = w3 ∧
        t.tbl.seed1 = w4 ∧ Changes [.results, .tbl, .perf] s t) ∧
    (s.takes 0x040E c = true → epochOf c = 0 → (fld w2 0 24 = 0 ∨ leastAge s.time.beats.toNat ≤ fld w2 0 24) →
      1 ≤ fld w3 0 16 →
      Completes (.tblGlobalConfig c) s fun t => went t ∧ t.tbl.agePeriod.toNat = fld w2 0 24 ∧
        t.tbl.notifyHold.toNat = fld w3 0 16 ∧ t.tbl.ecmpSeed = w4 ∧ t.tbl.ecmpFields.toNat = wd64 c.words 5 ∧
        Changes [.results, .tbl, .perf] s t) ∧
    (∀ v, s.takes 0x040D c = true → epochOf c = 0 → s.port? (portOf c) = some v → fld w2 0 2 ≠ 3 → fld w2 4 12 ≠ 0 →
      fld w2 4 12 ≠ 4095 → (fld w3 0 21 ≤ 1064960 ∨ fld w3 0 21 = 0x1FFFFF) →
      Completes (.tblPortConfig c) s fun t => went t ∧
        (∃ u, t.port? (portOf c) = some u ∧ u.learnMode.toNat = fld w2 0 2 ∧ u.limitAct = bit w2 2 ∧ u.missAct = bit w2 3 ∧
          u.pvid.toNat = fld w2 4 12 ∧ u.learnLimit.toNat = fld w3 0 21 ∧
          u.atLimit = (decide (fld w3 0 21 ≠ 0x1FFFFF) && decide (fld w3 0 21 ≤ s.learnedCount (portOf c)))) ∧
        Changes [.results, .tbl, .perf, .ports] s t) ∧
    (s.takes 0x040F c = true → epochOf c = 0 → fld w2 0 4 ≤ 2 →
      (∀ x ∈ s.parse.staged, ∀ a b d, x.2.meets (.emProfile (fld (wd c.words 0) 0 4) a b d) = false) →
      Completes (.emKeyProfileWrite c) s fun t => went t ∧
        (let p := tget t.tbl.emProfiles (fld (wd c.words 0) 0 4) {}
         p.kt.toNat = fld w2 0 4 ∧ p.a.toNat = fld w3 0 6 ∧ p.b.toNat = fld w3 8 6 ∧ p.c.toNat = fld w3 16 6 ∧
         p.d.toNat = fld w3 24 6 ∧ p.e.toNat = fld w4 0 6) ∧ Changes [.results, .tbl, .perf] s t) ∧
    (s.takes 0x0410 c = true → (bit (wd c.words 0) 10 = true → s.hasPort (fld (wd c.words 0) 0 10) = true) →
      Completes (.tblStatus c) s fun t =>
        (∃ ws, Replied s t c stOk ws ∧ ws.length = 18 ∧ wd ws 0 = word s.tbl.em.all.length ∧
          wd ws 1 = word s.tbl.em.stash.length ∧ wd ws 5 = word s.tbl.tsn.val.toNat ∧
          wd ws 17 = word (if bit (wd c.words 0) 10 then s.learnedCount (fld (wd c.words 0) 0 10) else 0)) ∧
        Changes [.results] s t)

/-- EM_INSERT and EM_DELETE complete at once (R143, R176, R177): a new key's entry stands in the place that was made for it,
with REPLACE a present key's entry takes the new result fields, and a deleted entry's place is free; each takes one
table sequence number.
LPM_INSERT and LPM_DELETE complete at once for every length (R153 to R158, R178): length 0 is the default-route register,
1 to 16 the committed short prefixes, 17 and up an entry of the family's pool; each takes one table sequence number. -/
def Obligations.TableEntryChangesComplete : Prop :=
  (∀ (c : Cmd) (s : State),
    let img := emImage c
    let e := entOf img
    let k := keyWords c.words
    let went (t : State) := Replied s t c stOk [] ∧ t.tbl.tsn = s.tbl.tsn.add 1
    epochOf c = 0 →
    (∀ u l, s.takes 0x0402 c = true → imageRo img = false → e.ftype ≠ 3 → e.kt.toNat ≤ 2 →
      (e.route = false → s.destRefused e.ftype.toNat e.fid.toNat 0 = none) →
      s.copiesOfKey 0 e.kt e.key = [] → s.makePlace 0 e.kt e.key = some (u, l) →
      Completes (.emInsert c) s fun t =>
        Changes [.ports, .tbl, .tally, .perf, .results, .holds, .epochs] s t ∧ went t ∧ t.tbl.em.at? l = some e) ∧
    (∀ loc x, s.takes 0x0402 c = true → imageRo img = false → e.ftype ≠ 3 → e.kt.toNat ≤ 2 →
      (e.route = false → s.destRefused e.ftype.toNat e.fid.toNat 0 = none) →
      pendingSlots (s.copiesOfKey 0 e.kt e.key) = [] → presentCopy (s.copiesOfKey 0 e.kt e.key) = some (loc, x) →
      s.tbl.em.at? loc = some x → bit (wd c.words 0) 0 = true →
      Completes (.emInsert c) s fun t => Changes [.ports, .tbl, .tally, .perf, .results, .holds, .epochs] s t ∧ went t ∧
        t.tbl.em.at? loc = some { x with ftype := e.ftype, fid := e.fid, cls := e.cls, static := e.static, route := e.route }) ∧
    (∀ loc x, s.takes 0x0403 c = true → k.1.toNat ≤ 2 → pendingSlots (s.copiesOfKey 0 k.1 k.2) = [] →
      presentCopy (s.copiesOfKey 0 k.1 k.2) = some (loc, x) → s.tbl.em.at? loc = some x →
      Completes (.emDelete c) s fun t =>
        Changes [.ports, .tbl, .tally, .perf, .results, .holds, .epochs] s t ∧ went t ∧ t.tbl.em.at? loc = none)) ∧
  (∀ (c : Cmd) (s : State),
    let w := wd c.words 0
    let fam := fld w 0 1
    let len := fld w 1 8
    let pfx := prefixOf fam c.words
    let r := wd c.words 6
    let went (t : State) := Replied s t c stOk [] ∧ t.tbl.tsn = s.tbl.tsn.add 1
    epochOf c = 0 → prefixBad fam len pfx c.words = false →
    (s.takes 0x0404 c = true → s.destRefused (fld r 0 2) (fld r 2 18) 0 = none →
      (len = 0 → s.prefixPending fam len pfx = [] → (s.shortThere fam len pfx = true → bit w 9 = true) →
        Completes (.lpmInsert c) s fun t =>
          Changes [.tbl, .tally, .perf, .results, .holds, .epochs] s t ∧
          went t ∧ (t.lpm fam).defRoute = { live := some r, staged := none }) ∧
      (1 ≤ len → len ≤ 16 → s.prefixPending fam len pfx = [] → (s.shortThere fam len pfx = true → bit w 9 = true) →
        ((s.lpm fam).putShadow { plen := len, bits := BitVec.ofNat 16 (directIdx fam pfx), result := some r }).isSome = true →
        Completes (.lpmInsert c) s fun t =>
          Changes [.tbl, .tally, .perf, .results, .holds, .epochs] s t ∧
          went t ∧ tget? (t.lpm fam).short (shortKey fam len pfx) = some r) ∧
      (∀ u l, 16 < len → s.lengthsFull fam len = false → s.copiesOfKey (1 + fam) 0 (poolKey fam len pfx) = [] →
        s.makePlace (1 + fam) 0 (poolKey fam len pfx) = some (u, l) →
        Completes (.lpmInsert c) s fun t =>
          Changes [.tbl, .tally, .perf, .results, .holds, .epochs] s t ∧
          went t ∧ (t.lpm fam).pool.at? l = some (poolEnt fam len pfx r {}))) ∧
    (s.takes 0x0405 c = true →
      (len = 0 → s.prefixPending fam len pfx = [] → s.shortThere fam len pfx = true →
        Completes (.lpmDelete c) s fun t =>
          Changes [.tbl, .tally, .perf, .results, .holds, .epochs] s t ∧
          went t ∧ (t.lpm fam).defRoute = { live := none, staged := none }) ∧
      (1 ≤ len → len ≤ 16 → s.prefixPending fam len pfx = [] → s.shortThere fam len pfx = true →
        ((s.lpm fam).putShadow { plen := len, bits := BitVec.ofNat 16 (directIdx fam pfx), result := none }).isSome = true →
        Completes (.lpmDelete c) s fun t =>
          Changes [.tbl, .tally, .perf, .results, .holds, .epochs] s t ∧
          went t ∧ tget? (t.lpm fam).short (shortKey fam len pfx) = none) ∧
      (∀ loc x, 16 < len → pendingSlots (s.copiesOfKey (1 + fam) 0 (poolKey fam len pfx)) = [] →
        presentCopy (s.copiesOfKey (1 + fam) 0 (poolKey fam len pfx)) = some (loc, x) → (s.lpm fam).pool.at? loc = some x →
        Completes (.lpmDelete c) s fun t =>
          Changes [.tbl, .tally, .perf, .results, .holds, .epochs] s t ∧ went t ∧ (t.lpm fam).pool.at? loc = none)))

/-- The rows of the table objects complete (R162, R165, R180, R181): TBL_OBJ_WRITE creates an object, live at once and staged
under an epoch; TBL_OBJ_DELETE frees it, or leaves it PENDING_FREE while packets hold it; TBL_OBJ_STATUS tells which;
ECMP_MEMBER_WRITE writes a member slot of a group. That one with VALID 0 stores its NEXT_HOP unchecked is the model's choice (DESIGN
CHOICE: log entry 175).
The searches complete (R171 to R173, R179): TBL_SEARCH for a key, a prefix and an address, TBL_NEXT from the start and
at the close of a cursor, TBL_FLUSH, whose reply comes with FLUSH_DONE. That a cursor closes with the reply that returns END and what a
CLOSE answers are the model's choices (DESIGN CHOICE: log entry 190). -/
def Obligations.TableObjectAndSearchRowsComplete : Prop :=
  (∀ (c : Cmd) (s : State),
    let kind := fld (wd c.words 0) 0 2
    let id := fld (wd c.words 0) 2 18
    let ws := c.words.drop 2
    let went (t : State) := Replied s t c stOk [] ∧ t.tbl.tsn = s.tbl.tsn.add 1
    (s.takes 0x0409 c = true → kind ≠ 3 → id ≤ objMax kind → usedOk (objUsed kind) ws = true →
      s.objFields kind (epochOf c) ws = none → tget? (s.objs kind) id = none → (kind = 1 → s.groupOverlaps ws = false) →
      (epochOf c = 0 → Completes (.tblObjWrite c) s fun t => Changes [.tbl, .perf, .results, .epochs] s t ∧ went t ∧
        tget? (t.objs kind) id = some { words := ws } ∧ SameBut [id] (s.objs kind) (t.objs kind)) ∧
      (∀ b, epochOf c ≠ 0 → s.slotFor (epochOf c) = .ok b → Completes (.tblObjWrite c) s fun t =>
        Changes [.tbl, .perf, .results, .epochs] s t ∧ went t ∧
        tget? (t.objs kind) id = some { words := ws, mark := { stage := 1, slot := b } } ∧
        SameBut [id] (s.objs kind) (t.objs kind))) ∧
    (∀ o, s.takes 0x040A c = true → kind ≠ 3 → id ≤ objMax kind → tget? (s.objs kind) id = some o → o.freeing = none →
      o.mark.stage = 0 → s.tableRefs { kind := kind, id := id } = 0 → epochOf c = 0 →
      Completes (.tblObjDelete c) s fun t => Changes [.tbl, .perf, .results, .epochs] s t ∧ went t ∧
        tget? (t.objs kind) id =
          (if s.inflight { kind := kind, id := id } = 0 then none
           else some { o with mark := {}, freeing := some s.time.beat }) ∧
        SameBut [id] (s.objs kind) (t.objs kind)) ∧
    (∀ o, s.takes 0x040B c = true → kind ≠ 3 → id ≤ objMax kind → tget? (s.objs kind) id = some o →
      Completes (.tblObjStatus c) s fun t =>
        (∃ st, Replied s t c stOk ([word st, word (s.tableRefs { kind := kind, id := id }),
            word (s.inflight { kind := kind, id := id })] ++ wordsOf ((o.freeing.getD 0).toNat) 2) ∧
          (o.freeing ≠ none → st = 2) ∧ (o.freeing = none → o.mark.stage = 0 → st = 1)) ∧ Changes [.results] s t) ∧
    (s.takes 0x040B c = true → kind ≠ 3 → id ≤ objMax kind → tget? (s.objs kind) id = none →
      Completes (.tblObjStatus c) s fun t => Replied s t c stOk [0, 0, 0, 0, 0] ∧ Changes [.results] s t) ∧
    (let slot := fld (wd c.words 0) 0 16
     let hop := fld (wd c.words 2) 0 17
     let valid := bit (wd c.words 2) 17
     ∀ g, s.takes 0x040C c = true → epochOf c = 0 →
      (s.tbl.groups.find? fun g => decide (g.2.base ≤ slot) && decide (slot < g.2.base + g.2.size)) = some g →
      s.objRefused 1 g.1 0 = none → (valid = true → s.objRefused 0 hop 0 = none) →
      (tget s.tbl.members slot {}).staged = none →
      Completes (.ecmpMemberWrite c) s fun t => Changes [.tbl, .perf, .results, .epochs] s t ∧ went t ∧
        tget t.tbl.members slot {} = { hop := BitVec.ofNat 17 hop, valid := valid } ∧
        SameBut [slot] s.tbl.members t.tbl.members)) ∧
  (∀ (c : Cmd) (s : State),
    let w := wd c.words 0
    let k := keyWords c.words
    let fam := fld w 0 2 - 1
    let a := prefixOf fam c.words
    (s.takes 0x0406 c = true → fld w 0 2 = 0 → k.1.toNat ≤ 2 → (wd c.words 4).toNat &&& 0xFFFF0F00 = 0 → wd c.words 5 = 0 →
      Completes (.tblSearch c) s fun t =>
        (∃ h, Replied s t c stOk (match s.findEnt 0 k.1 k.2 with
            | some x => [h, word x.1] ++ x.2.image (fld w 2 2)
            | none => [h, 0, 0, 0, 0, 0]) ∧ bit h 0 = (s.findEnt 0 k.1 k.2).isSome) ∧ Changes [.results] s t) ∧
    (s.takes 0x0406 c = true → (fld w 0 2 = 1 ∨ fld w 0 2 = 2) → bit w 12 = true →
      prefixBad fam (fld w 4 8) a c.words = false →
      Completes (.tblSearch c) s fun t =>
        (∃ h, Replied s t c stOk (match s.prefixAt fam (fld w 4 8) a with
            | some x => [h, word x.loc] ++ x.image
            | none => [h, 0, 0, 0, 0, 0]) ∧ bit h 0 = (s.prefixAt fam (fld w 4 8) a).isSome) ∧ Changes [.results] s t) ∧
    (s.takes 0x0406 c = true → (fld w 0 2 = 1 ∨ fld w 0 2 = 2) → bit w 12 = false →
      prefixBad fam (famWidth fam) a c.words = false →
      Completes (.tblSearch c) s fun t =>
        (∃ h, Replied s t c stOk (match s.lpmFind fam a with
            | some x => [h, word x.loc] ++ x.image
            | none => [h, 0, 0, 0, 0, 0]) ∧ bit h 0 = (s.lpmFind fam a).isSome) ∧ Changes [.results] s t) ∧
    (let tb := fld w 0 2
     let cu := 4 * tb + fld w 2 2
     let n := fld w 6 8
     let rest := s.cursorRest tb {}
     s.takes 0x0407 c = true → epochOf c = 0 → tb ≠ 3 → 1 ≤ n → n ≤ 128 → bit w 4 = true → bit w 5 = false →
      (∃ i, i < 4 ∧ thas s.tbl.cursors (4 * tb + i) = false) →
      Completes (.tblNext c) s fun t => Changes [.tbl, .results] s t ∧
        (∃ h, Replied s t c stOk (h :: (rest.take n).flatMap (nextRecord tb (fld w 14 2))) ∧
          bit h 0 = (rest.drop n).isEmpty ∧ fld h 1 8 = min n rest.length) ∧
        thas t.tbl.cursors cu = !(rest.drop n).isEmpty ∧ SameBut [cu] s.tbl.cursors t.tbl.cursors) ∧
    (let tb := fld w 0 2
     let cu := 4 * tb + fld w 2 2
     s.takes 0x0407 c = true → epochOf c = 0 → tb ≠ 3 → 1 ≤ fld w 6 8 → fld w 6 8 ≤ 128 → bit w 4 = false → bit w 5 = true →
      Completes (.tblNext c) s fun t =>
        Changes [.tbl, .results] s t ∧ Replied s t c stOk [0] ∧ tget? t.tbl.cursors cu = none ∧
        SameBut [cu] s.tbl.cursors t.tbl.cursors) ∧
    (∀ v, s.takes 0x0408 c = true → epochOf c = 0 → s.port? (portOf c) = some v →
      let vid := if bit w 11 then some (BitVec.ofNat 12 (fld w 12 12)) else none
      Completes (.tblFlush c) s fun t => Changes [.ports, .tbl, .tally, .perf, .results, .holds] s t ∧ NoReply s t ∧
        ∃ n, t.tbl.flushes =
          s.tbl.flushes ++ [{ port := portOf c, statics := bit w 10, vid := vid, count := n, cmd := c }]))

/-- The table engine's own rows complete (R145, R148, R151, R157, R165, R169, R173, R175). -/
def Obligations.TableTasksComplete : Prop :=
  ∀ (s : State),
    (∀ (loc : Word) seen (e : Ent), s.tbl.sweep = some seen →
      s.tbl.em.at? loc.toNat = some e → e.static = false → e.moving = false → e.stage = 0 →
      ((e.kt, e.key) ∈ seen → Completes (.ageSweepVisit loc) s fun t => Changes [] s t) ∧
      ((e.kt, e.key) ∉ seen → Completes (.ageSweepVisit loc) s fun t =>
        Changes [.ports, .tbl, .tally, .perf, .holds] s t ∧
        t.tbl.sweep = some (if e.hit = 0 ∧ e.age = 3 then seen else (e.kt, e.key) :: seen) ∧
        t.tbl.em.at? loc.toNat =
          (if e.hit ≠ 0 then some { e with hit := 0, age := 0 }
           else if e.age ≠ 3 then some { e with age := e.age + 1 } else none) ∧
        t.tbl.tsn = (if e.hit = 0 ∧ e.age = 3 then s.tbl.tsn.add 1 else s.tbl.tsn))) ∧
    (∀ region q, region < 4 → let s0 := s.finishMoves
      ((s0.copyOf region).learnQ.find? fun q => s0.tbl.flushes.all fun f => decide (f.port ≠ q.port)) = some q →
      Completes (.learnInsert region) s fun t => Changes [.ports, .tbl, .tally, .perf, .holds, .epochs] s t ∧
        (t.copyOf region).learnQ = (s.copyOf region).learnQ.erase q ∧
        (let s1 := s0.setCopy region { s0.copyOf region with learnQ := (s0.copyOf region).learnQ.erase q }
         ∀ u l, s1.copiesOfKey 0 q.kt q.key = [] → s1.limitReached q.port = false → s1.makePlace 0 q.kt q.key = some (u, l) →
          t.tbl.em.at? l = some { kt := q.kt, key := q.key, fid := BitVec.ofNat 20 q.port } ∧
          t.tbl.tsn = s.tbl.tsn.add 1)) ∧
    (∀ table idx e l, table < 3 → idx < stashSize table → let s0 := s.finishMoves
      (s0.ht table).at? (stashBase + idx) = some e →
      ((s0.ht table).freeSlot (s0.buckets table e.kt e.key).1 = some l ∨
        ((s0.ht table).freeSlot (s0.buckets table e.kt e.key).1 = none ∧
          (s0.ht table).freeSlot (s0.buckets table e.kt e.key).2 = some l)) →
      Completes (.stashMove table idx) s fun t => Changes [.tbl, .tally, .perf, .holds] s t ∧ (t.ht table).at? l = some e ∧
        (l < stashBase → (t.ht table).at? (stashBase + idx) = none)) ∧
    (∀ family idx x, family < 2 → idx < 64 → tget? (s.lpm family).shadow idx = some x → x.staged = none →
      Completes (.shadowRewriteDone family idx) s fun t => tget? (t.lpm family).shadow idx = none ∧
        (t.lpm family).short = (s.lpm family).short ∧ Changes [.tbl] s t) ∧
    (∀ (epoch : BitVec 16) x, s.epoch? epoch.toNat = some x → x.state = .cleaning →
      Completes (.epochCleanupDone epoch) s fun t =>
        Changes [.ports, .parse, .tbl, .tally, .perf, .holds, .epochs] s t ∧ t.epoch? epoch.toNat = none) ∧
    (∀ kind id o, kind < 3 → id ≤ objMax kind → tget? (s.objs kind) id = some o → o.freeing ≠ none →
      s.inflight { kind := kind, id := id } = 0 →
      Completes (.objectFreed kind id) s fun t => tget? (t.objs kind) id = none ∧ Changes [.tbl] s t) ∧
    (∀ port f, port < 1024 → (s.tbl.flushes.find? fun f => decide (f.port = port)) = some f →
      Completes (.flushDone port) s fun t => t.tbl.flushes = s.tbl.flushes.erase f ∧
        Replied s t f.cmd stOk [word f.count] ∧ Changes [.tbl, .results, .holds, .perf] s t) ∧
    (∀ region m x, region < 4 → (s.copyOf region).rebuilding = some m → (s.copyOf region).borrowFrom = some x →
      Completes (.copyRebuildDone region) s fun t => Changes [.tbl, .tally, .perf, .err, .holds] s t ∧
        (t.copyOf region).rebuilding = none ∧ (t.copyOf region).borrowFrom = none ∧
        ∀ x ∈ t.tbl.em.all, x.2.hit.getLsbD region = true) ∧
    (∀ region, region < 4 → ((s.copyOf region).rebuilding = none ∨ (s.copyOf region).borrowFrom = none) →
      Completes (.copyRebuildDone region) s fun t => t = s)

/-! ### Chapter 06: granary and glacier -/

/-- The buffer settings complete with legal values: BUF_REGION_CONFIG (R217), BUF_PORT_CONFIG (R218), BUF_QUEUE_CONFIG
(R219), WRED_PROFILE_WRITE (R220), GLACIER_QUOTA_CONFIG (R221).
The buffer reads complete: BUF_REGION_STATUS (R222), QUEUE_STATUS, whose CLEAR sets PEAK and both counters to 0 (R223),
BUF_GLACIER_STATUS (R224). -/
def Obligations.BufferCommandsComplete : Prop :=
  (∀ (c : Cmd) (s : State),
    let w0 := wd c.words 0
    let w1 := wd c.words 1
    let w2 := wd c.words 2
    let w3 := wd c.words 3
    let w4 := wd c.words 4
    (let r := fld w0 0 2
     s.takes 0x0501 c = true → 1 ≤ fld w1 0 16 → fld w1 0 16 ≤ 32768 → w3 ≠ 0 →
      0 ≤ (327680 : Int) - (s.region r).retired.length - (fld w1 0 16 : Nat) - (fld w2 0 16 : Nat) - s.portReserves r →
      Completes (.bufRegionConfig c) s fun t =>
        Changes [.ports, .queues, .arrivals, .regions, .results] s t ∧ Replied s t c stOk [] ∧
        (t.region r).refillReserve.toNat = fld w1 0 16 ∧ (t.region r).headroom.toNat = fld w2 0 16 ∧
        (t.region r).lfsr = w3 ∧ (t.region r).seed = w3 ∧ SameBut [r] s.regions t.regions) ∧
    (∀ v, s.takes 0x0502 c = true → s.port? (portOf c) = some v → fld w3 0 20 < fld w2 0 20 →
      0 ≤ (s.setPort (portOf c) { v with portReserve := BitVec.ofNat 14 (fld w1 0 14) }).sharedSize (laneRegion (portOf c)) →
      Completes (.bufPortConfig c) s fun t =>
        Changes [.out, .ports, .queues, .arrivals, .regions, .tally, .perf, .results, .holds] s t ∧
        Replied s t c stOk [] ∧
        ∃ u, t.port? (portOf c) = some u ∧ u.portReserve.toNat = fld w1 0 14 ∧ u.lossless.toNat = fld w1 16 8 ∧
          u.xoffTh.toNat = fld w2 0 20 ∧ u.xonTh.toNat = fld w3 0 20) ∧
    (let q := fld w0 0 14
     s.takes 0x0503 c = true → s.hasPort (queuePort q) = true → 1 ≤ fld w1 0 12 → fld w1 12 4 ≤ 9 → 64 ≤ fld w2 0 20 →
      fld w2 0 20 ≤ 327680 → 64 ≤ fld w3 0 16 → fld w3 0 16 ≤ 16384 → fld w3 0 16 ≤ fld w2 0 20 → 1 ≤ fld w3 16 15 →
      fld w3 16 15 ≤ 20000 →
      0 ≤ (s.setQueue q { s.queue q with reserve := BitVec.ofNat 12 (fld w1 0 12) }).sharedSize (queueRegion q) →
      Completes (.bufQueueConfig c) s fun t =>
        Changes [.ports, .queues, .arrivals, .regions, .results] s t ∧ Replied s t c stOk [] ∧
        (let x := t.queue q
         x.reserve.toNat = fld w1 0 12 ∧ x.alpha.toNat = fld w1 12 4 ∧ x.spillEn = bit w1 16 ∧
         x.spillThresh.toNat = fld w2 0 20 ∧ x.refillTarget.toNat = fld w3 0 16 ∧ x.lifetime.toNat = fld w3 16 15 ∧
         x.wredGreen.toNat = fld w4 0 6 ∧ x.wredYellow.toNat = fld w4 8 6 ∧ x.wredRed.toNat = fld w4 16 6 ∧
         x.wredW.toNat = fld w4 24 4) ∧ SameBut [q] s.queues t.queues) ∧
    (let i := fld w0 0 6
     s.takes 0x0504 c = true → i ≠ 0 → fld w0 16 4 ≠ 0 → fld w1 0 24 ≤ fld w2 0 24 → fld w3 0 9 ≤ 256 →
      Completes (.wredProfileWrite c) s fun t => Replied s t c stOk [] ∧
        (∀ r, r < 4 → bit w0 (16 + r) = true →
          let x := tget (t.region r).wred i {}
          x.minTh.toNat = fld w1 0 24 ∧ x.maxTh.toNat = fld w2 0 24 ∧ x.maxP.toNat = fld w3 0 9 ∧ x.ecn = bit w3 9 ∧
          x.ecnOver = bit w3 10) ∧
        (∀ r, r < 4 → bit w0 (16 + r) = false → t.region r = s.region r) ∧ Changes [.results, .regions] s t) ∧
    (let who := 2 * fld w0 0 2 + fld w0 2 1
     s.takes 0x0505 c = true → 1 ≤ fld w1 0 15 → fld w1 0 15 ≤ 5596 → fld w1 0 15 ≤ fld w2 0 15 → fld w2 0 15 ≤ 22384 →
      Completes (.glacierQuotaConfig c) s fun t => Replied s t c stOk [] ∧
        t.quota who = { s.quota who with reserve := BitVec.ofNat 15 (fld w1 0 15), limit := BitVec.ofNat 15 (fld w2 0 15) } ∧
        SameBut [who] s.quotas t.quotas ∧ Changes [.results, .quotas] s t)) ∧
  (∀ (c : Cmd) (s : State),
    let w0 := wd c.words 0
    (let r := fld w0 0 2
     s.takes 0x0506 c = true → Completes (.bufRegionStatus c) s fun t =>
      Replied s t c stOk [word (s.freeCellsOf r), word (s.sharedSize r).toNat, word (s.region r).sharedUsed,
        word (s.region r).headroomUsed, word (s.region r).refillUsed] ∧ Changes [.results] s t) ∧
    (let q := fld w0 0 14
     let x := s.queue q
     s.takes 0x0507 c = true → s.hasPort (queuePort q) = true → Completes (.queueStatus c) s fun t =>
      (∃ ws, Replied s t c stOk ws ∧ ws.length = 10 ∧ (x.grDepth < 2 ^ 20 → fld (wd ws 0) 0 20 = x.grDepth) ∧
        wd ws 1 = word x.sharedHeld ∧ wd ws 2 = word x.glacier.length ∧ wd ws 4 = x.avg ∧ wd ws 5 = word x.peak.toNat) ∧
      t.queue q = (if bit w0 31 then { x with peak := 0, spilled := {}, ecnMarked := {} } else x) ∧
      SameBut [q] s.queues t.queues ∧ Changes [.results, .queues] s t) ∧
    (let g := s.glacier (fld w0 0 1)
     s.takes 0x0508 c = true → Completes (.bufGlacierStatus c) s fun t =>
      (∃ ws, Replied s t c stOk ws ∧ ws.length = 14 ∧
        (∀ i, i < 4 → wd ws i = word (g.pool i).free ∧ wd ws (4 + i) = word (g.pool i).cache) ∧
        wd ws 12 = word g.doubleFrees.toNat) ∧ Changes [.results] s t))

/-- ADMISSION of one packet that its queue reserve can hold links it at the tail of its queue's granary segment, charged
wholly to that reserve (R187, R192), with the cells that its data has come to need drawn from the lists (R186): its port is up,
its length fits, its queue does not spill, and its profile is 0. When a packet's cells are drawn is the model's choice (DESIGN CHOICE: log
entry 171); when the cut-through fit is tested is its inference (DEDUCED: log entry 164).
ADMISSION at a port that is not up, and of no waiting packet, completes as well: the packet reaches no queue (R192). A region of 4 or
more is no object: the rows fault, which is the model's choice (DESIGN CHOICE: log entry 3). -/
def Obligations.AdmissionCompletes : Prop :=
  (∀ (s : State) (k : Pkt),
    let q := k.queueNo
    let x := s.queue q
    let n := cellsOf k.len
    s.arrivals = [k] → queueRegion q < 4 → s.isUp (queuePort q) = true →
    (k.known = true → k.edited ≤ (s.port (queuePort q)).maxFrame.toNat) → x.spilling = false → x.wredOf k.colour = 0 →
    (x.spillEn = true → x.grDepth + n ≤ x.spillThresh.toNat) → n ≤ x.reserve.toNat - x.reserveUsed →
    Completes (.admission (queueRegion q) [k.id]) s fun t =>
      t.arrivals = [] ∧
      (∃ cells, (t.queue q).granary = x.granary ++ [{ k with ct := s.ctFits k, charge := { queue := n }, cells := cells }] ∧
        cells.length ≤ cellsOf k.present ∧ ∀ c ∈ cells, thas (t.region (queueRegion q)).drawn c = true) ∧
      (t.queue q).reserveUsed = x.reserveUsed + n ∧ (t.queue q).grDepth = x.grDepth + n ∧
      (t.queue q).sharedHeld = x.sharedHeld ∧ (t.queue q).glacier = x.glacier ∧
      (t.region (queueRegion q)).sharedUsed = (s.region (queueRegion q)).sharedUsed ∧ SameBut [q] s.queues t.queues) ∧
  ((∀ (s : State) (k : Pkt), s.arrivals = [k] → queueRegion k.queueNo < 4 → s.isUp (queuePort k.queueNo) = false →
    Completes (.admission (queueRegion k.queueNo) [k.id]) s fun t => t.arrivals = [] ∧ t.queues = s.queues) ∧
  (∀ (s : State) (region : Nat), region < 4 → Completes (.admission region []) s fun t => t = s) ∧
  (∀ (s : State) (region : Nat) (pkts : List Nat), 4 ≤ region →
    exec (.admission region pkts) s = .fault .noSuchObject ∧ exec (.refillRequest region pkts) s = .fault .noSuchObject))

/-- The refill rows and the pointer traffic complete (R204, R208, R214): a queue below its REFILL_TARGET takes its oldest
glacier packet back into the granary on the refill reserve, unless a pattern beyond correction waits in its descriptor and breaks the
segment (R215, R400), its data's arrival frees the glacier block, and the two
pointer transfers move up to 2,048 pointers. The requests that wait for a fetch and are served by it are the model's inference (DEDUCED:
log entry 172). -/
def Obligations.GlacierRowsComplete : Prop :=
  (∀ (s : State) (q : Nat) (k : Pkt) (ks : List Pkt),
    let x := s.queue q
    let g := s.region (queueRegion q)
    let d := regionDie (queueRegion q)
    let n := cellsOf k.len
    q < 16384 → s.isUp (queuePort q) = true → x.grDepth < x.refillTarget.toNat → x.glacier = k :: ks →
    s.expired q k = false → k.len ≤ 2097152 → k.len ≤ (s.glacier d).refillCredit →
    n ≤ g.refillReserve.toNat - g.refillUsed →
    Completes (.refillRequest (queueRegion q) [q]) s fun t =>
      (s.descStruck q k = false →
        (t.queue q).glacier = ks ∧
        (t.queue q).granary = x.granary ++ [{ k with refilling := true, charge := { refill := n }, cells := [] }] ∧
        (t.region (queueRegion q)).refillUsed = g.refillUsed + n) ∧
      (s.descStruck q k = true →
        (t.queue q).glacier = [] ∧ (t.queue q).granary = x.granary ∧
        (t.glacier d).orphans = (s.glacier d).orphans ++ k :: ks)) ∧
  (∀ (s : State) (q : Nat) (k : Pkt) (read : BlockRead), q < 16384 → ((s.queue q).granary.find? (·.refilling)) = some k →
    (∀ j ∈ s.err.injections, j.det ≠ dGlacierCe ∧ j.det ≠ dGlacierData ∧ j.det ≠ dGlacierDesc) → read ≠ .uncorrectable →
    Completes (.refillDataArrived q read) s fun t =>
      Changes [.free, .out, .ports, .queues, .arrivals, .regions, .glaciers, .quotas, .tally, .perf, .err, .holds] s t ∧
      ∃ k' ∈ (t.queue q).granary, ∃ cells, k' = { k with refilling := false, block := none, cells := cells }) ∧
  (∀ (s : State) (die pool : Nat),
    let p := (s.glacier die).pool pool
    die < 2 → pool < 4 → pool < (s.glacier die).pools.length →
    Completes (.pointerFetchDone die pool) s (fun t =>
      (t.glacier die).pool pool =
        (if p.fetching then
          let n := min 2048 p.stack
          { p with
              cache := p.cache + n - p.owed, stack := p.stack - n, owed := p.owed - (p.cache + n)
              fetching := decide (p.cache + n - p.owed < 1024) && decide (n < p.stack) }
         else p) ∧
      Changes [.glaciers] s t) ∧
    Completes (.pointerWritebackDone die pool) s (fun t =>
      (t.glacier die).pool pool = (if p.writing then { p with writing := false, cache := p.cache - 2048, stack := p.stack + min 2048 p.cache } else p) ∧
      Changes [.glaciers] s t))

/-! ### Chapter 07: scheduling, shaping, gates and meters -/

/-- SCHED_PORT_CONFIG (R234, R252), SCHED_QUEUE_CONFIG (R234, R253) and METER_CONFIG (R248, R257) complete with legal values;
a shaper that is enabled anew starts with a full bucket, and a meter starts full with its counts clear.
The reads of chapter 07 complete: SCHED_QUEUE_STATUS (R256), METER_READ, whose CLEAR sets the three counts to 0
(R258). -/
def Obligations.SchedulingCommandsComplete : Prop :=
  (∀ (c : Cmd) (s : State),
    let w1 := wd c.words 1
    let w2 := wd c.words 2
    let w3 := wd c.words 3
    let burst := fld w3 0 24
    let credit (x : Shaper) (en : Bool) : Int :=
      if en then (if x.en then min x.credit (burst * 2 ^ 32) else burst * 2 ^ 32) else x.credit
    (∀ v, s.takes 0x0601 c = true → s.port? (portOf c) = some v → -32 ≤ signed 7 (fld w1 0 7) → 14 ≤ fld w1 10 5 →
      fld w1 10 5 ≤ 30 → (bit w1 7 = true → w2 ≠ 0) →
      Completes (.schedPortConfig c) s fun t => Replied s t c stOk [] ∧
        (∃ u, t.port? (portOf c) = some u ∧ u.overhead.toNat = fld w1 0 7 ∧ u.shaper.en = bit w1 7 ∧
          u.shaper.rate = w2 ∧ u.shaper.burst.toNat = burst ∧ u.shaper.credit = credit v.shaper (bit w1 7) ∧
          u.gates.en = bit w1 8 ∧ u.sampleQEn = bit w1 9 ∧ u.sampleJ.toNat = fld w1 10 5 ∧
          u.guardBand.toNat = fld (wd c.words 4) 0 24) ∧
        SameBut [portOf c] s.ports t.ports ∧ Changes [.results, .ports] s t) ∧
    (let q := fld (wd c.words 0) 0 14
     s.takes 0x0602 c = true → s.hasPort (queuePort q) = true → 1 ≤ fld w1 0 10 → (bit w1 10 = true → w2 ≠ 0) →
      Completes (.schedQueueConfig c) s fun t => Replied s t c stOk [] ∧
        (t.queue q).weight.toNat = fld w1 0 10 ∧ (t.queue q).shaper.en = bit w1 10 ∧ (t.queue q).shaper.rate = w2 ∧
        (t.queue q).shaper.burst.toNat = burst ∧ (t.queue q).shaper.credit = credit (s.queue q).shaper (bit w1 10) ∧
        SameBut [q] s.queues t.queues ∧ Changes [.results, .queues] s t) ∧
    (let i := fld (wd c.words 0) 0 16
     let mode := fld w1 0 2
     let w4 := wd c.words 4
     let ebs := fld (wd c.words 5) 0 24
     s.takes 0x0608 c = true → fld (wd c.words 0) 16 4 ≠ 0 → -32 ≤ signed 7 (fld w1 5 7) → (mode = 1 → w4 = 0) →
      (mode = 2 → w2.toNat ≤ w4.toNat) → (bit w1 4 = true → mode = 3) →
      Completes (.meterConfig c) s fun t => Replied s t c stOk [] ∧
        (∀ r, r < 4 → bit (wd c.words 0) (16 + r) = true →
          let m := t.meter r i
          m.mode.toNat = mode ∧ m.aware = bit w1 2 ∧ m.redMark = bit w1 3 ∧ m.coupled = bit w1 4 ∧
          m.lenAdj.toNat = fld w1 5 7 ∧ m.cir = w2 ∧ m.cbs.toNat = burst ∧ m.eir = w4 ∧ m.ebs.toNat = ebs ∧
          m.tokC = burst * 2 ^ 32 ∧ m.tokE = ebs * 2 ^ 32 ∧ m.green = {} ∧ m.yellow = {} ∧ m.red = {}) ∧
        (∀ r, r < 4 → bit (wd c.words 0) (16 + r) = false → t.meter r i = s.meter r i) ∧ Changes [.results, .meters] s t)) ∧
  (∀ (c : Cmd) (s : State),
    let w0 := wd c.words 0
    (let q := fld w0 0 14
     s.takes 0x060A c = true → s.hasPort (queuePort q) = true → Completes (.schedQueueStatus c) s fun t =>
      (∃ a ws, Replied s t c stOk (a :: ws) ∧ ws.length = 4 ∧
        bit a 0 = s.eligible (queuePort q) (queueIdx q) false ∧ bit a 2 = (s.port (queuePort q)).queuePaused s.time (queueIdx q) ∧
        wd ws 0 = (s.queue q).headF.getD 0 ∧ wd ws 1 = (s.port (queuePort q)).vOf q) ∧ Changes [.results] s t) ∧
    (let i := fld w0 0 16
     let r := fld w0 16 2
     let m := s.meter r i
     s.takes 0x0609 c = true → m.green.frozen = false → m.yellow.frozen = false → m.red.frozen = false →
      Completes (.meterRead c) s fun t =>
      (∃ a ws, Replied s t c stOk (a :: ws) ∧ ws.length = 12 ∧ fld a 0 2 = m.mode.toNat ∧ wd ws 0 = m.cir ∧ wd ws 2 = m.eir) ∧
      t.meter r i = (if bit w0 31 then { m with green := {}, yellow := {}, red := {} } else m) ∧
      Changes [.results, .meters] s t))

/-- The gate commands complete (R237, R239, R254 to R256): GATE_LIST_WRITE writes entries of the administrative bank and
leaves the operational bank, GATE_LIST_READ reads a bank, GATE_ACTIVATE schedules the take-over at its beat and phase,
GATE_CANCEL removes it, GATE_STATUS reads.
The gate events complete (R236, R237): at its instant the pending list takes over, its bank becomes operational and
TAKEOVERS goes up; before it nothing changes; a gate list entry that comes into force touches the gates only.
The ticks complete (R232, R244): every 8 ns the credit of every enabled shaper rises by INC, the rounded RATE × 2^32 ÷
10^6 units, and never above BURST by the tick; the buckets of every meter in use fill. -/
def Obligations.GateAndTickRowsComplete : Prop :=
  (∀ (c : Cmd) (s : State) (v : Port),
    let p := portOf c
    let g := v.gates
    let w1 := wd c.words 1
    s.port? p = some v →
    (let first := fld w1 1 8
     let n := fld w1 9 9
     s.takes 0x0603 c = true → 1 ≤ n → first + n ≤ 256 →
      (∀ i, i < n → (wd c.words (2 + 2 * i)).toNat < 65536 ∧ intervalOk (wd c.words (3 + 2 * i)) = true) → g.pending = none →
      Completes (.gateListWrite c) s fun t => Replied s t c stOk [] ∧
        (∃ u, t.port? p = some u ∧
          (∀ i, i < n →
            (tget (if g.operBank then u.gates.bank0 else u.gates.bank1) (first + i) {}).states.toNat =
              (wd c.words (2 + 2 * i)).toNat ∧
            (tget (if g.operBank then u.gates.bank0 else u.gates.bank1) (first + i) {}).interval = wd c.words (3 + 2 * i)) ∧
          (if g.operBank then u.gates.bank1 = g.bank1 else u.gates.bank0 = g.bank0)) ∧
        Changes [.results, .ports] s t) ∧
    (let first := fld w1 1 8
     let n := fld w1 9 9
     let b := if bit w1 0 then g.bank1 else g.bank0
     s.takes 0x0604 c = true → 1 ≤ n → first + n ≤ 256 → Completes (.gateListRead c) s fun t =>
      (∃ ws, Replied s t c stOk ws ∧ ws.length = 2 * n ∧
        ∀ i, i < n → wd ws (2 * i) = word (tget b (first + i) {}).states.toNat ∧
          wd ws (2 * i + 1) = (tget b (first + i) {}).interval) ∧ Changes [.results] s t) ∧
    (let n := fld w1 0 9
     let ct := (wd c.words 2).toNat
     let phase := fld (wd c.words 5) 0 30
     let b := (wd c.words 3).toNat + fld (wd c.words 4) 0 16 * 2 ^ 32
     s.takes 0x0605 c = true → 1 ≤ n → n ≤ 256 → 1000 ≤ ct → ct ≤ 4000000000 → phase < s.time.beatLen →
      ((g.entries (!g.operBank) n).all fun e => decide (e.interval ≠ 0)) = true → g.pending = none →
      s.time.nextNs + 1000 ≤ b * s.time.beatLen + phase →
      Completes (.gateActivate c) s fun t =>
        (∃ ws, Replied s t c stOk (0 :: ws)) ∧
        t.port? p = some { v with gates := { g with
          pending := some { at_ := b * s.time.beatLen + phase, count := n, cycle := ct, late := 0 } } } ∧
        SameBut [p] s.ports t.ports ∧ Changes [.results, .ports] s t) ∧
    (∀ tk, s.takes 0x0606 c = true → g.pending = some tk → s.time.nextNs + 1000 ≤ tk.at_ →
      Completes (.gateCancel c) s fun t => Changes [.ports, .results] s t ∧ Replied s t c stOk [] ∧
        t.port? p = some { v with gates := { g with pending := none } } ∧ SameBut [p] s.ports t.ports) ∧
    (s.takes 0x0607 c = true → Completes (.gateStatus c) s fun t =>
      (∃ ws, Replied s t c stOk ws ∧ ws.length = 8 ∧ bit (wd ws 0) 0 = g.operBank ∧ bit (wd ws 0) 1 = g.pending.isSome ∧
        bit (wd ws 0) 2 = g.listActive ∧ wd ws 1 = word g.operCycle ∧ wd ws 2 = word g.operCount ∧
        wd ws 7 = g.takeovers) ∧ Changes [.results] s t)) ∧
  (∀ (s : State) (p : Nat) (v : Port), p < 1024 → s.port? p = some v →
    (∀ tk, v.gates.pending = some tk → tk.at_ ≤ s.time.ns → Completes (.gateTakeover p) s fun t =>
      Changes [.ports, .tally, .perf, .holds] s t ∧
      ∃ u, t.port? p = some u ∧ u.gates.operBank = !v.gates.operBank ∧ u.gates.listActive = true ∧
        u.gates.operCycle = tk.cycle ∧ u.gates.operCount = tk.count ∧ u.gates.operStart = tk.at_ ∧ u.gates.pending = none ∧
        u.gates.takeovers = v.gates.takeovers + 1) ∧
    (∀ tk, v.gates.pending = some tk → s.time.ns < tk.at_ → Completes (.gateTakeover p) s fun t => t = s) ∧
    (v.gates.pending = none → Completes (.gateTakeover p) s fun t => t = s) ∧
    Completes (.gateEntryChange p) s (fun t =>
      t.port? p = some { v with gates := v.gates.settle s.time.ns } ∧ SameBut [p] s.ports t.ports ∧ Changes [.ports] s t)) ∧
  (∀ (s : State),
    let rises (x y : Shaper) := y = { x with credit := y.credit } ∧
      y.credit = if x.en then max x.credit (min (x.burst.toNat * 2 ^ 32) (x.credit + (x.rate.toNat * 2 ^ 32 + 500000) / 1000000))
        else x.credit
    Completes .shaperTick s (fun t => (∀ p, rises (s.port p).shaper (t.port p).shaper) ∧
      (∀ q, rises (s.queue q).shaper (t.queue q).shaper) ∧ Changes [.ports, .queues] s t) ∧
    Completes .meterTick s (fun t => Changes [.meters] s t ∧
      ∀ r i, let m := s.meter r i
        let n := t.meter r i
        (m.mode = 0 → n = m) ∧ m.tokC ≤ n.tokC ∧ m.tokE ≤ n.tokE ∧
        (m.mode ≠ 0 → n.tokC = max m.tokC (min (m.cbs.toNat * 2 ^ 32) (m.tokC + (m.cir.toNat * 2 ^ 32 + 500000) / 1000000)))))

/-- Transmission completes (R226, R227, R230, R96, R97, R213, R214): TX_SELECT sends the head of the one queue that holds a
packet; TX_UNDERRUN ends a frame early and raises CT_THRESHOLD; TX_FRAME_END puts the frame out and frees the port;
a port that is down drops its head packets; QUEUE_SAMPLE counts its samples, once at each instant that is a multiple of 2^SAMPLE_J. That
a drain takes the lowest-numbered queue, and its pace, are the model's inference (DEDUCED: log entry 85). -/
def Obligations.TransmitRowsComplete : Prop :=
  ∀ (s : State) (p : Nat), p < 1024 →
    (∀ (i : Nat) (k : Pkt) (ks : List Pkt),
      let q := 16 * p + i
      let v := s.port p
      i < 16 → s.isUp p = true → v.tx = none → s.txFenced p = false → (s.queue q).granary = k :: ks →
      (∀ j, j < 16 → j ≠ i → (s.queue (16 * p + j)).granary = []) →
      k.known = true → k.refilling = false → v.queuePaused s.time i = false → (s.queue q).shaper.ok = true → v.shaper.ok = true →
      v.gates.en = false → s.expired q k = false → v.stormDrops i = false → k.edited ≤ v.maxFrame.toNat →
      (∀ j ∈ s.err.injections, j.det ≠ dGranaryCe ∧ j.det ≠ dGranaryUe) → s.noPattern dRegionState (laneRegion p) →
      Completes (.txSelect p) s fun t =>
        Changes [.free, .out, .ports, .queues, .arrivals, .regions, .glaciers, .quotas, .tally, .perf, .err, .holds] s t ∧
        (t.queue q).granary.map (·.id) = ks.map (·.id) ∧
        ((∀ y ∈ ks, y.ct = false ∨ y.known = true) → (t.queue q).granary = ks) ∧
        ∃ x, (t.port p).tx = some x ∧ x.pkt = k ∧ x.qidx = i ∧ x.stomp = none ∧
          (t.port p).vOf q = (s.queue q).headF.getD 0) ∧
    ((s.isUp p = false ∨ (s.port p).tx ≠ none ∨ s.txFenced p = true) → Completes (.txSelect p) s fun t => t = s) ∧
    (∀ sent x, (s.port p).tx = some x → x.stomp = none → x.pkt.badEnd = none → s.hasPort p = true →
      Completes (.txUnderrun p sent) s fun t => Changes [.ports, .tally, .perf, .holds] s t ∧
        (t.port p).ctThresh.toNat = (if (s.port p).ctThresh.toNat < 64 then (s.port p).ctThresh.toNat + 1
          else (s.port p).ctThresh.toNat) ∧
        (t.port p).cleanCount = 0 ∧ ∃ y, (t.port p).tx = some y ∧ y.pkt = x.pkt ∧ (y.stomp.map (·.1)) = some sent) ∧
    (∀ x, (s.port p).tx = some x → s.hasPort p = true → x.stomp = none → x.pkt.badEnd = none → x.pkt.known = true →
      x.pkt.refilling = false →
      Completes (.txFrameEnd p) s fun t =>
        Changes [.free, .out, .ports, .queues, .regions, .glaciers, .quotas, .tally, .perf, .err, .holds] s t ∧
        (t.port p).tx = none ∧
        Out.frame p x.pkt.edited ((s.editFrame x.pkt).take (x.pkt.edited - 4)) false ∈ t.out) ∧
    (∀ i k ks, s.hasPort p = true → s.isUp p = false → (s.port p).drainPs ≤ s.time.runPs → i < 16 → (s.queue (16 * p + i)).granary = k :: ks →
      (∀ j, j < i → (s.queue (16 * p + j)).granary = [] ∧ (s.queue (16 * p + j)).glacier = []) →
      Completes (.portDrainStep p) s fun t =>
        Changes [.free, .out, .ports, .queues, .arrivals, .regions, .glaciers, .quotas, .tally, .perf, .err, .holds] s t ∧
        (t.queue (16 * p + i)).granary = (k :: ks).filter fun x => decide (x.id ≠ k.id)) ∧
    (∀ v, s.port? p = some v → let at_ := s.time.ns / 2 ^ v.sampleJ.toNat * 2 ^ v.sampleJ.toNat
      (v.sampleQEn = true → s.time.ns ≤ at_ + 1 → v.sampleAt ≠ some at_ →
        Completes (.queueSample p) s fun t => Changes [.ports, .tally] s t ∧
          t.port? p = some { v with sampleSeq := v.sampleSeq + 1, sampleAt := some at_ }) ∧
      ((v.sampleQEn = false ∨ at_ + 1 < s.time.ns ∨ v.sampleAt = some at_) →
        Completes (.queueSample p) s fun t => t = s))

/-! ### Reception, pause and bring-up events -/

/-- A start-of-frame delimiter at a port in UP is a received packet (R76, R78): RECEIVED goes up by one and the frame gets the next
packet number; at a port outside UP, or with a frame in reception, nothing happens.
A good frame that is for no function of the MAC waits for its parse, with its whole length (R76, Table 3-2); a frame of
another row of Table 3-2 reaches no parser, and the port receives the next frame in either case.
PARSE_START completes: a frame that has ended leaves the frames that wait, unless its cluster's receive side is fenced
(R105, R384) or an earlier frame of its port block is still to be dispatched (R23); a packet number that no frame has does nothing.
A pattern that waits in the cluster's state words is met here and begins the cluster's recovery (R384, R400), which loses the frames that
wait; that a parse reads those words is the model's choice (DESIGN CHOICE: log entry 193). -/
def Obligations.ReceptionRowsComplete : Prop :=
  (∀ (s : State) (p : Nat) (v : Port), p < 1024 → s.port? p = some v →
    (v.state = .up → v.rx = none → Completes (.rxFrameStart p) s fun t =>
      Changes [.free, .nextPkt, .ports, .arrivals, .regions, .tally, .perf, .stw, .err, .parish, .pwr] s t ∧
      t.nextPkt = s.nextPkt + 1 ∧
      ∃ u x, t.port? p = some u ∧ u.received = v.received + 1 ∧ u.rx = some x ∧
        x.pktId = s.nextPkt ∧ x.maxFrame = v.maxFrame.toNat ∧ x.wait = none ∧
        u.frameNo = (if v.sampleEn then v.frameNo + 1 else v.frameNo) ∧ SameBut [p] s.ports t.ports) ∧
    ((v.state ≠ .up ∨ v.rx ≠ none) → Completes (.rxFrameStart p) s fun t => t = s)) ∧
  (∀ (s : State) (p len : Nat) (data : List Byte) (check : FrameCheck) (v : Port) (x : Rx), p < 1024 → s.port? p = some v → v.rx = some x →
    x.wait = none →
    (64 ≤ len → len ≤ x.maxFrame → len ≤ 16383 → x.discard = false → s.isRiwen p data = false → netAt data 12 2 ≠ 0x8808 →
      v.fcsHolds check = true → Completes (.rxFrameEnd p len data check) s fun t =>
        Changes [.free, .out, .nextPkt, .ports, .queues, .parseQ, .riwenQ, .arrivals, .regions, .glaciers, .quotas, .meters, .tally, .perf, .err, .parish, .holds] s t ∧
        (∃ k, t.parseQ = s.parseQ ++ [k] ∧ k.id = x.pktId ∧ k.ingress = some p ∧ k.len = len ∧ k.data = data ∧
          k.known = true ∧ k.copy = 0) ∧
        ∃ u, t.port? p = some u ∧ u.rx = none ∧ u.receivedBytes = v.receivedBytes + BitVec.ofNat 64 len) ∧
    (frameRow len x.maxFrame (v.fcsHolds check) ≠ 7 → Completes (.rxFrameEnd p len data check) s fun t =>
      Changes [.free, .out, .nextPkt, .ports, .queues, .parseQ, .riwenQ, .arrivals, .regions, .glaciers, .quotas, .meters, .tally, .perf, .err, .parish, .holds] s t ∧
      t.parseQ = s.parseQ ∧
      ∃ u, t.port? p = some u ∧ u.rx = none ∧ u.receivedBytes = v.receivedBytes + BitVec.ofNat 64 (min len 16384))) ∧
  (∀ (s : State) (n : Nat) (present : List Byte),
    (∀ k p, (s.parseQ.find? fun k => decide (k.id = n)) = some k → k.ingress = some p → s.rxFenced p = false →
      s.blockedBy p n = false → s.noPattern dClusterState (laneCluster p) → Completes (.parseStart n present) s fun t =>
        Changes [.free, .nextPkt, .ports, .parseQ, .arrivals, .parse, .tbl, .meters, .tally, .perf, .err, .holds, .epochs] s t ∧
        t.parseQ = s.parseQ.erase k) ∧
    (∀ k p, (s.parseQ.find? fun k => decide (k.id = n)) = some k → k.ingress = some p → s.rxFenced p = false →
      s.blockedBy p n = false → (s.clusterMeets p).2 = true → thas s.err.failedClusters (laneCluster p) = false →
      Completes (.parseStart n present) s fun t =>
        Changes [.free, .nextPkt, .ports, .parseQ, .arrivals, .tally, .perf, .err, .holds] s t ∧
        thas t.err.fences (2 * laneCluster p) = true ∧
        ∀ x ∈ t.parseQ, x ∈ s.parseQ ∧ ∀ i, x.ingress = some i → laneCluster i ≠ laneCluster p) ∧
    (∀ k p, (s.parseQ.find? fun k => decide (k.id = n)) = some k → k.ingress = some p →
      (s.rxFenced p = true ∨ s.blockedBy p n = true) → Completes (.parseStart n present) s fun t => t = s) ∧
    ((∀ k ∈ s.parseQ, k.id ≠ n) → (∀ e ∈ s.ports, ∀ x, e.2.rx = some x → x.pktId ≠ n) →
      Completes (.parseStart n present) s fun t => t = s))

/-- The pause rows complete on a configured port (R83, R86 to R88): the timer's end unpauses, the watchdog ends the pause and
starts its recovery, the recovery's end clears it, and while the device holds XOFF the pause frame is sent again, each at its time and
not before. -/
def Obligations.PauseRowsComplete : Prop :=
  ∀ (s : State) (p n : Nat) (v : Port), p < 1024 → n < 8 → s.port? p = some v →
    let u := tget v.pause n {}
    (u.until_ ≠ none → v.paused s.time n = false → Completes (.pauseTimerExpiry p n) s fun t =>
      t.port? p = some { v with pause := tins v.pause n { u with until_ := none } } ∧ Changes [.ports] s t) ∧
    (v.wdDue s.time n = true → Completes (.pauseWdFired p n) s fun t => Changes [.ports, .tally, .perf, .holds] s t ∧
      ∃ w, t.port? p = some w ∧ tget w.pause n {} = { u with until_ := none, recovery := some s.time.runPs } ∧
        w.state = v.state ∧ SameBut [p] s.ports t.ports) ∧
    (∀ r, u.recovery = some r → v.recoveryOver s.time r = true → Completes (.pauseWdEnded p n) s fun t => Changes [.ports, .tally, .perf, .holds] s t ∧
      ∃ w, t.port? p = some w ∧ tget w.pause n {} = { u with until_ := none, recovery := none }) ∧
    (∀ at_, u.xoff = true → v.txRefresh ≠ 0 → v.state = .up → v.fcMode ≠ 0 → v.tx = none → u.xoffSent = some at_ →
      at_ + v.txRefresh.toNat * v.quantumPs ≤ s.time.runPs → Completes (.xoffRefresh p n) s fun t =>
      Changes [.out, .ports, .tally, .perf, .holds] s t ∧
      ∃ o ∈ t.out, o = .pauseFrame p (if v.fcMode = 2 then 2 ^ n else 0) v.txQuanta.toNat pauseDst (bytesOf v.pauseSa.toNat 6)) ∧
    (v.paused s.time n = true → Completes (.pauseTimerExpiry p n) s fun t => t = s) ∧
    (v.wdDue s.time n = false → Completes (.pauseWdFired p n) s fun t => t = s) ∧
    (∀ r, u.recovery = some r → v.recoveryOver s.time r = false → Completes (.pauseWdEnded p n) s fun t => t = s) ∧
    (u.until_ = none → u.recovery = none → u.xoff = false →
      Completes (.pauseTimerExpiry p n) s (fun t => t = s) ∧ Completes (.pauseWdFired p n) s (fun t => t = s) ∧
      Completes (.pauseWdEnded p n) s (fun t => t = s) ∧ Completes (.xoffRefresh p n) s (fun t => t = s))

/-- The bring-up events complete and move a port along Table 2-2 (R46 to R51); in another state they do nothing. The ability bits that
a negotiation compares are the model's (PRESUMED: log entry 166); that TRAINING_DONE begins the run of failed trainings anew is its
choice (DESIGN CHOICE: log entry 168), and so are the wait of a DEGRADED port in ALIGN (DESIGN CHOICE: log entry 195) and what
becomes of a frame in transmission when the port leaves UP (log entry 42). -/
def Obligations.BringUpRowsComplete : Prop :=
  ∀ (s : State) (p : Nat) (v : Port), p < 1024 → s.port? p = some v →
    (v.state = .waitSignal → s.held dLinkFault p = false → Completes (.signalDetected p) s fun t => Changes [.lanes, .ports] s t ∧
      (t.port p).state = (if (s.lane p).anEnable then .negotiate else .train)) ∧
    (∀ partner, v.state = .negotiate →
      let mine := (s.lane p).rateEnable &&& ~~~ v.withdrawn &&& partner
      let best := codesDown.find? fun n => mine.getLsbD n && abilityBit v.width.toNat n
      Completes (.negotiationResolved p partner) s fun t =>
        Changes [.free, .out, .lanes, .ports, .queues, .regions, .glaciers, .quotas, .tally, .perf, .err, .parish, .holds] s t ∧
        match best with
        | some r => (t.port p).state = .train ∧ (t.port p).rate.toNat = r
        | none => (t.port p).state = .waitSignal ∧ (t.port p).lastCause = 2) ∧
    (v.state = .negotiate → Completes (.negTimeout p) s fun t =>
      Changes [.free, .out, .lanes, .ports, .queues, .regions, .glaciers, .quotas, .tally, .perf, .err, .parish, .holds] s t ∧
      (t.port p).state = .waitSignal ∧ (t.port p).lastCause = 1) ∧
    (∀ inv, v.state = .train → Completes (.trainingDone p inv) s fun t => Changes [.lanes, .ports] s t ∧
      (t.port p).state = .align ∧ (t.port p).trainFails = 0) ∧
    (v.state = .train → Completes (.trainTimeout p) s fun t =>
      Changes [.free, .out, .lanes, .ports, .queues, .regions, .glaciers, .quotas, .tally, .perf, .err, .parish, .holds] s t ∧
      (t.port p).state = .waitSignal ∧ (t.port p).lastCause = 3) ∧
    (∀ logical skew delays inv, v.state = .align → skew ≤ 64 → s.heldDown p = false → s.degradeHeld p = false →
      Completes (.alignLock p logical skew delays inv) s fun t =>
        Changes [.free, .out, .lanes, .ports, .queues, .regions, .glaciers, .quotas, .tally, .perf, .err, .parish, .holds] s t ∧
        (t.port p).state = .up) ∧
    (∀ logical skew delays inv, v.state = .align → skew ≤ 64 → (s.heldDown p = true ∨ s.degradeHeld p = true) →
      Completes (.alignLock p logical skew delays inv) s fun t => Changes [.lanes, .ports] s t ∧ (t.port p).state = .align ∧
        (t.port p).skewHigh = false) ∧
    (∀ logical skew delays inv, v.state = .align → 64 < skew →
      Completes (.alignLock p logical skew delays inv) s fun t => Changes [.lanes, .ports] s t ∧
        (t.port p).state = .align ∧ (t.port p).skewHigh = true) ∧
    (v.state = .align → Completes (.alignTimeout p) s fun t =>
      Changes [.free, .out, .lanes, .ports, .queues, .regions, .glaciers, .quotas, .tally, .perf, .err, .parish, .holds] s t ∧
      (t.port p).state = .waitSignal ∧ (t.port p).lastCause = (if v.skewHigh then 5 else 4)) ∧
    (∀ lane lock, lane < 1024 → s.lanePort? lane = some p → v.state = .up →
      Completes (.signalLost lane lock) s fun t =>
        Changes [.free, .out, .lanes, .ports, .queues, .regions, .glaciers, .quotas, .tally, .perf, .err, .parish, .holds] s t ∧
        (t.port p).state = .waitSignal ∧ (t.port p).lastCause = (if lock then 6 else 7) ∧
        (t.port p).lastSpeed = some (v.width.toNat * rateGbps v.rate.toNat) ∧ (t.port p).tx = none) ∧
    (v.state = .disabled → Completes (.signalDetected p) s (fun t => t = s) ∧ Completes (.negTimeout p) s (fun t => t = s) ∧
      Completes (.trainTimeout p) s (fun t => t = s) ∧ Completes (.alignTimeout p) s (fun t => t = s))

/-- The events of one lane complete (R53, R55, R56, R58, R61): the figure of merit is stored, a running checker locks and
loses lock, a coefficient request moves a tap by one step in TRAIN and stays at its limits. That a window's row tells of signal and lock
of a lane outside UP, and that a checker's lock sets both, is the model's choice (DESIGN CHOICE: log entry 40). -/
def Obligations.LaneEventsComplete : Prop :=
  ∀ (s : State) (n : Nat), n < 1024 →
    let l := s.lane n
    (∀ fom eq sig lk, s.laneState n ≠ .disabled → s.laneState n ≠ .waitSignal →
      (if s.laneState n = .up then l.lock = true else lk = true ∧ s.held dLinkFault n = false) →
      Completes (.fomWindowEnd n ⟨fom, sig, lk⟩ eq) s fun t =>
        Changes [.lanes, .tally, .perf, .holds] s t ∧ (t.lane n).fom = fom ∧ SameBut [n] s.lanes t.lanes) ∧
    (∀ fom eq sig lk, (s.laneState n = .disabled ∨ s.laneState n = .waitSignal ∨
        (if s.laneState n = .up then l.lock = false else lk = false ∨ s.held dLinkFault n = true)) →
      Completes (.fomWindowEnd n ⟨fom, sig, lk⟩ eq) s fun t => Changes [.lanes] s t ∧
        (t.lane n).fom = 0x8000 ∧ (t.lane n).lowWindows = 0 ∧ (t.lane n).okWindows = 0 ∧ (t.lane n).eq = l.eq ∧
        SameBut [n] s.lanes t.lanes) ∧
    (l.chkPattern ≠ 0 → Completes (.prbsCheckerLock n) s fun t =>
      t.lane n = { l with prbsLock := true, signal := true, lock := true } ∧ SameBut [n] s.lanes t.lanes ∧ Changes [.lanes] s t) ∧
    (∀ bits errs, Completes (.prbsLockLost n bits errs) s fun t =>
      (t.lane n).prbsLock = false ∧
      (t.lane n).prbsBits = (if l.prbsLock then l.prbsBits + BitVec.ofNat 64 bits else l.prbsBits) ∧
      SameBut [n] s.lanes t.lanes ∧ Changes [.lanes] s t) ∧
    (∀ post up, s.laneState n = .train → Completes (.coefficientRequest n post up) s fun t =>
      let old := if post then l.postMag.toNat else l.preMag.toNat
      let new := if post then (t.lane n).postMag.toNat else (t.lane n).preMag.toNat
      let lim := if post then 24 else 16
      (up = true → new = if old < lim then old + 1 else old) ∧ (up = false → new = old - 1) ∧
      t.out = s.out ++ (if (if up then lim ≤ old else old = 0) then [.tapAtLimit n post] else []) ∧
      SameBut [n] s.lanes t.lanes ∧ Changes [.out, .lanes] s t) ∧
    (∀ post up, s.laneState n ≠ .train → Completes (.coefficientRequest n post up) s fun t => t = s)

/-! ### Chapter 08: time and the bell -/

/-- The commands of group 0x07 but TIME_ADJUST complete with legal values: TIME_STATUS reads (R290), BELL_CONFIG lets a new
rate wait for the next whole second (R268, R269), TIME_SOURCE_CONFIG writes the fields of Table 8-6 (R287),
TIME_PPS_LABEL holds its label for the next edge (R289).
TIME_ADJUST completes in each mode with SOURCE 0 or 3 and a value in range (R274, R276, R288): STEP adds the value to the
time base, SET loads it, SLEW leaves the value to be taken out, FREQ sets FREQ_ADJ. That a STEP of 0 counts no step and that SLEW leaves
minus the value are the model's inferences (DEDUCED: log entries 92, 90). -/
def Obligations.TimeCommandsComplete : Prop :=
  (∀ (c : Cmd) (s : State),
    let w1 := wd c.words 1
    let w2 := wd c.words 2
    let w3 := wd c.words 3
    let w4 := wd c.words 4
    (s.takes 0x0701 c = true → Completes (.timeStatus c) s fun t =>
      (∃ ws, Replied s t c stOk ws ∧ ws.length = 15 ∧ fld (wd ws 0) 0 3 = s.time.state.code ∧
        fld (wd ws 0) 3 3 = s.time.source.toNat ∧ fld (wd ws 0) 16 8 = s.time.bellGen.toNat ∧
        (s.time.ns < 2 ^ 64 → wd64 ws 1 = s.time.ns) ∧ wd64 ws 4 = s.time.beat.toNat ∧
        wd ws 7 = word s.time.beats.toNat) ∧ Changes [.results] s t) ∧
    (let b := fld w1 0 14
     s.takes 0x0702 c = true → 10 ≤ b → b ≤ 10000 → 1000000000 % b = 0 → s.time.source ≠ 2 →
      (b = s.time.beats.toNat → s.time.pendingB = none → Completes (.bellConfig c) s fun t =>
        Replied s t c stOk [] ∧ Changes [.results] s t) ∧
      (b ≠ s.time.beats.toNat → s.bellBusy c = false → Completes (.bellConfig c) s fun t =>
        Replied s t c stOk [] ∧ t.time = { s.time with pendingB := some (BitVec.ofNat 14 b, none) } ∧
        Changes [.results, .time] s t)) ∧
    (s.takes 0x0703 c = true → fld w1 0 3 < 5 → (bit w1 3 = true → fld w1 0 3 = 1) → fld w1 6 2 ≠ 3 →
      (fld w1 6 2 = 2 → fld w1 0 3 = 2) → 1 ≤ fld w1 8 8 → fld w1 8 8 ≤ 250 → 1 ≤ fld w2 0 16 → 1 ≤ fld w2 16 8 →
      1 ≤ fld w2 24 8 → 1000 ≤ fld w3 0 30 → fld w3 0 30 ≤ 1000000000 →
      Completes (.timeSourceConfig c) s fun t =>
        Changes [.time, .tally, .perf, .results, .holds] s t ∧ Replied s t c stOk [] ∧
        t.time.source.toNat = fld w1 0 3 ∧ t.time.refEn = bit w1 3 ∧ t.time.stepEn = bit w1 4 ∧ t.time.ppsFall = bit w1 5 ∧
        t.time.servoBw.toNat = fld w1 6 2 ∧ t.time.slewMax.toNat = fld w1 8 8 ∧ t.time.lockThresh.toNat = fld w2 0 16 ∧
        t.time.srcTimeout.toNat = fld w2 16 8 ∧ t.time.holdAvg.toNat = fld w2 24 8 ∧ t.time.stepLimit.toNat = fld w3 0 30 ∧
        t.time.asymAdj.toNat = fld w4 0 16 ∧ t.time.settle.toNat = fld w4 16 8 ∧ t.time.ns = s.time.ns ∧
        t.time.frac = s.time.frac ∧ t.time.beat = s.time.beat) ∧
    (let n := w1.toNat + fld w2 0 16 * 2 ^ 32
     s.takes 0x0705 c = true → n * 1000000000 < 2 ^ 63 → s.time.source = 1 → Completes (.timePpsLabel c) s fun t =>
      Replied s t c stOk [] ∧ t.time = { s.time with ppsLabel := some (n, s.time.runNs) } ∧ Changes [.results, .time] s t)) ∧
  (∀ (c : Cmd) (s : State),
    let v := adjustValue c
    let w2 := wd c.words 2
    s.takes 0x0704 c = true → (s.time.source = 0 ∨ s.time.source = 3) →
    (fld (wd c.words 1) 0 2 = 0 → 0 ≤ s.time.total + v → s.time.total + v < timeMax →
      Completes (.timeAdjustStep c) s fun t =>
        Changes [.out, .nextPkt, .ports, .queues, .arrivals, .parse, .tbl, .regions, .glaciers, .time, .tally, .perf, .stw, .err, .parish, .pwr, .results, .holds, .epochs] s t ∧
        t.time.total = s.time.total + v ∧ t.time.phaseValid = true ∧
        t.time.steps = (if v = 0 then s.time.steps else s.time.steps + 1)) ∧
    (fld (wd c.words 1) 0 2 = 3 → (wd64 c.words 2 : Int) * nsUnit + (fld (wd c.words 4) 0 16 : Int) * 2 ^ 32 < timeMax →
      Completes (.timeAdjustSet c) s fun t =>
        Changes [.out, .nextPkt, .ports, .queues, .arrivals, .parse, .tbl, .regions, .glaciers, .time, .tally, .perf, .stw, .err, .parish, .pwr, .results, .holds, .epochs] s t ∧
        t.time.total = (wd64 c.words 2 : Int) * nsUnit + (fld (wd c.words 4) 0 16 : Int) * 2 ^ 32 ∧
        t.time.firstAcq = true) ∧
    (fld (wd c.words 1) 0 2 = 1 → v.natAbs ≤ 1000000000 * 2 ^ 48 → Completes (.timeAdjustSlew c) s fun t =>
      Changes [.nextPkt, .ports, .time, .tally, .perf, .results, .holds] s t ∧
      Replied s t c stOk [] ∧ t.time.slewLeft = -v ∧ t.time.total = s.time.total) ∧
    (fld (wd c.words 1) 0 2 = 2 → wd c.words 3 = 0 → fld (wd c.words 4) 0 16 = 0 → (signed 32 w2.toNat).natAbs ≤ 128000000 →
      Completes (.timeAdjustFreq c) s fun t =>
        Changes [.nextPkt, .ports, .time, .tally, .perf, .results, .holds] s t ∧ Replied s t c stOk [] ∧
        (2 * 256000000000 * t.time.freqAdj - 2 * signed 32 w2.toNat * 2 ^ 48).natAbs ≤ 256000000000 ∧
        t.time.total = s.time.total))

/-- The events of the time sources complete (R271, R277, Table 8-2): a PPS edge is measured against the nearest whole second,
or rejected when the device has been LOCKED by PPS and it lies more than 1 ms away; a 10 MHz window beside PPS sets FREQ_ADJ
within 500 ppm outside HOLDOVER, and as SOURCE 4 begins an acquisition; a source silent for SOURCE_TIMEOUT brings HOLDOVER. How a label
bears on the lock that lets an edge be rejected is the model's inference (DEDUCED: log entry 95).
BEAT_BOUNDARY moves the beat on by one at its instant (R264), and nothing happens while TBCLK does not run; where the next
boundary is that of a whole second a waiting beat rate takes effect with a new bell generation, the beat becoming the
second times B (R264, R268). That the boundary's row lets the TBCLK cycles up to it pass is the model's choice (DESIGN CHOICE: log entry
11), that a rate's change takes its boundary's place is its inference (DEDUCED: log entry 99). -/
def Obligations.TimeEventsComplete : Prop :=
  (∀ (s : State),
    (∀ captured : Nat, s.pwr.ready = true → s.time.source = 1 → s.time.ppsLabel = none → s.time.ppsLast = none →
      let off : Int := (captured : Int) - ((captured + 4000000000) / 8000000000 * 8000000000 : Nat)
      (s.time.ppsLocked = true → off.natAbs > 8000000 → Completes (.ppsEdge captured) s fun t =>
        t.time = { s.time with ppsRejects := satAdd 16 s.time.ppsRejects 1 } ∧ Changes [.time] s t) ∧
      ((s.time.ppsLocked = false ∨ off.natAbs ≤ 8000000) → Completes (.ppsEdge captured) s fun t =>
        Changes [.free, .out, .nextPkt, .ports, .queues, .arrivals, .parse, .tbl, .regions, .glaciers, .time, .tally, .perf, .stw, .err, .parish, .pwr, .holds, .epochs] s t ∧
        t.time.offset = off / 8)) ∧
    (∀ captured, (s.pwr.ready = false ∨ s.time.source ≠ 1) → Completes (.ppsEdge captured) s fun t => t = s) ∧
    (∀ freq, s.pwr.ready = true → s.time.source = 1 → s.time.refEn = true → s.time.state ≠ .holdover → Completes (.ref10mWindow freq) s fun t =>
      -ppm500 ≤ t.time.freqAdj ∧ t.time.freqAdj ≤ ppm500 ∧ t.time.ns = s.time.ns ∧ Changes [.time, .free] s t) ∧
    (∀ freq, s.pwr.ready = true → s.time.source = 1 → s.time.state = .holdover →
      Completes (.ref10mWindow freq) s fun t => t = s) ∧
    (∀ freq, s.pwr.ready = true → s.time.source = 4 → (s.time.state = .unset ∨ s.time.state = .freerun) →
      Completes (.ref10mWindow freq) s fun t =>
        Changes [.free, .nextPkt, .ports, .time, .tally, .perf, .holds] s t ∧ t.time.state = .acquiring) ∧
    (let due := s.time.measured + s.time.srcTimeout.toNat * 100000000
     (s.time.source ≠ 0 → (s.time.state = .acquiring ∨ s.time.state = .locked) → due ≤ s.time.runNs →
        Completes .sourceTimeout s fun t =>
      t.time.state = .holdover ∧ t.time.holdSince = some s.time.runNs ∧ Changes [.time, .holds, .perf] s t) ∧
     ((s.time.source = 0 ∨ (s.time.state ≠ .acquiring ∧ s.time.state ≠ .locked) ∨ s.time.runNs < due) →
        Completes .sourceTimeout s fun t => t = s))) ∧
  (∀ (s : State),
    (s.timeRuns = true → s.time.rateDue = false → Completes .beatBoundary s fun t =>
      Changes [.out, .funcs, .nextPkt, .ports, .queues, .arrivals, .parse, .tbl, .time, .tally, .perf, .err, .parish, .holds, .epochs] s t ∧
      t.time.beat = s.time.beat + 1 ∧ t.time.beatRun = s.time.beatRun + 1 ∧
      t.time.ns = (s.time.reach (s.time.boundary (s.time.beat.toNat + 1))).ns ∧
      t.time.beats = s.time.beats ∧ t.time.bellGen = s.time.bellGen ∧ t.lanes = s.lanes ∧ t.meters = s.meters) ∧
    (s.timeRuns = false → Completes .beatBoundary s fun t => t = s) ∧
    (∀ b, s.time.pendingB = some (b, none) → s.timeRuns = true → s.time.rateDue = true → Completes .bellRateChange s fun t =>
      Changes [.out, .funcs, .nextPkt, .ports, .queues, .arrivals, .parse, .tbl, .time, .tally, .perf, .err, .parish, .flights, .holds, .epochs] s t ∧
      let second := s.time.nextSecond
      t.time.beats = b ∧ t.time.pendingB = none ∧ t.time.bellGen = s.time.bellGen + 1 ∧
      t.time.beat = BitVec.ofNat 48 (second * b.toNat) ∧ t.time.ns = (s.time.reach (second * 1000000000)).ns) ∧
    ((s.timeRuns = false ∨ s.time.rateDue = false) → Completes .bellRateChange s fun t => t = s))

/-! ### Chapter 09: tallies, dumps, counters -/

/-- The settings of group 0x08 complete with legal values: TALLY_CONFIG (R320), DUMP_RING_CONFIG (R321), PC_CONFIG (R311,
R323), RATE_CONFIG (R324), SAMPLE_CONFIG (R325), MIRROR_CONFIG (R326). That disabling a dump ring discards its waiting units is the
model's inference (DEDUCED: log entry 102).
The reads of group 0x08 complete where no counter they return is lost (R385): TALLY_PORT_READ (R315, R322), PC_READ, whose CLEAR sets the counters it returns to 0 and
no other (R310), RATE_READ (R324). -/
def Obligations.TelemetryCommandsComplete : Prop :=
  (∀ (c : Cmd) (s : State),
    let w0 := wd c.words 0
    let w1 := wd c.words 1
    let w2 := wd c.words 2
    (s.takes 0x0801 c = true → 7 ≤ fld w1 0 5 → fld w1 0 5 ≤ 20 → 4 ≤ fld w1 6 5 → fld w1 6 5 ≤ 16 → fld w1 12 8 ≤ 20 →
      Completes (.tallyConfig c) s fun t => Replied s t c stOk [] ∧
        t.tally = { s.tally with newLog2 := some (BitVec.ofNat 5 (fld w1 0 5)), summaryEn := bit w1 5, newShift := some (BitVec.ofNat 5 (fld w1 6 5)), histEn := bit w1 11, pcDumpLog2 := BitVec.ofNat 8 (fld w1 12 8) } ∧
        Changes [.results, .tally] s t) ∧
    (let k := fld w0 0 3
     s.takes 0x0802 c = true → k < 6 → ringAligned c.words = true → fnEnabled (fld w1 1 4) = true →
      (bit w1 0 = true → 16 ≤ fld w1 5 5 ∧ fld w1 5 5 ≤ 30) →
      Completes (.dumpRingConfig c) s fun t => Changes [.free, .tally, .results] s t ∧ Replied s t c stOk [] ∧
        (let r := tget t.tally.rings k {}
         r.en = bit w1 0 ∧ r.fn = fld w1 1 4 ∧ r.sizeLog2.toNat = fld w1 5 5 ∧ r.base.toNat = wd64 c.words 2 ∧
         r.ctrl.toNat = wd64 c.words 4 ∧ r.producer = 0 ∧ r.consumer = 0 ∧ r.dropped = 0) ∧
        SameBut [k] s.tally.rings t.tally.rings ∧
        (bit w1 0 = false → ∀ u ∈ t.tally.units, u.stream ≠ k)) ∧
    (let i := fld w0 0 9
     let new := perfOf (c.words.drop 1)
     let old := tget s.tally.perf i {}
     s.takes 0x0804 c = true → new.legal = true → Completes (.pcConfig c) s fun t => Replied s t c stOk [] ∧
      tget t.tally.perf i {} =
        (if old.sameCount new then { old with enable := new.enable, owner := new.owner, ownerEn := new.ownerEn, staged := none }
         else { old with staged := some (c.words.drop 1) }) ∧
      SameBut [i] s.tally.perf t.tally.perf ∧ Changes [.results, .perf] s t) ∧
    (∀ v, s.takes 0x0806 c = true → s.port? (portOf c) = some v → 1 ≤ fld w1 0 16 → Completes (.rateConfig c) s fun t =>
      Replied s t c stOk [] ∧
      (∃ u, t.port? (portOf c) = some u ∧ u.window.toNat = fld w1 0 16 ∧ u.rateEn = bit w1 16 ∧ u.rateValid = false ∧
        u.rateRun = [0, 0, 0, 0] ∧ u.ratePartial = true) ∧
      SameBut [portOf c] s.ports t.ports ∧ Changes [.results, .ports] s t) ∧
    (∀ v, s.takes 0x0808 c = true → s.port? (portOf c) = some v → w2 ≠ 0 → Completes (.sampleConfig c) s fun t =>
      Replied s t c stOk [] ∧
      (∃ u, t.port? (portOf c) = some u ∧ u.nMinus1.toNat = fld w1 0 24 ∧ u.sampleEn = bit w1 24 ∧
        u.sampleRnd = bit w1 25 ∧ u.frameNo = 0) ∧
      (t.region (laneRegion (portOf c))).sampleLfsr = w2 ∧
      SameBut [portOf c] s.ports t.ports ∧ Changes [.results, .ports, .regions] s t) ∧
    (let k := fld w0 0 4
     s.takes 0x0809 c = true → 64 ≤ fld w2 0 14 → Completes (.mirrorConfig c) s fun t => Replied s t c stOk [] ∧
      (let m := tget t.tally.mirrors k {}
       m.port.toNat = fld w1 0 10 ∧ m.queue.toNat = fld w1 10 4 ∧ m.enable = bit w1 14 ∧ m.truncEn = bit w1 15 ∧
       m.truncLen.toNat = fld w2 0 14) ∧
      SameBut [k] s.tally.mirrors t.tally.mirrors ∧ Changes [.results, .tally] s t)) ∧
  (∀ (c : Cmd) (s : State),
    let w0 := wd c.words 0
    (∀ v, s.takes 0x0803 c = true → s.port? (portOf c) = some v → v.cumFrozen = false → Completes (.tallyPortRead c) s fun t =>
      (∃ ws, Replied s t c stOk ws ∧ ws.length = 20 ∧ bit (wd ws 0) 0 = v.bytesWrapped ∧
        wd64 ws 1 = v.lastChecked.toNat ∧ (∀ i, i < 8 → wd64 ws (3 + 2 * i) = (v.cum.getD i 0).toNat) ∧
        wd ws 19 = v.imbalanced) ∧ Changes [.results] s t) ∧
    (let first := fld w0 0 9
     let n := fld w0 9 9
     s.takes 0x0805 c = true → 2 ≤ s.cmdPriv c → 1 ≤ n → n ≤ 256 → first + n ≤ 512 →
      (∀ i, i < n → (tget s.tally.perf (first + i) {}).count.frozen = false) → Completes (.pcRead c) s fun t =>
      (∃ ws, Replied s t c stOk ws ∧ ws.length = 2 * n ∧
        ∀ i, i < n → wd ws (2 * i) = word ((tget s.tally.perf (first + i) {}).count.val.toNat) ∧
          bit (wd ws (2 * i + 1)) 16 = (tget s.tally.perf (first + i) {}).count.sticky) ∧
      (∀ i, tget t.tally.perf i {} =
        if bit w0 31 = true ∧ first ≤ i ∧ i < first + n then { tget s.tally.perf i {} with count := {} }
        else tget s.tally.perf i {}) ∧ Changes [.results, .perf] s t) ∧
    (∀ v, s.takes 0x0807 c = true → s.port? (portOf c) = some v → Completes (.rateRead c) s fun t =>
      (∃ ws, Replied s t c stOk ws ∧ ws.length = 11 ∧ fld (wd ws 0) 0 16 = v.rateLatchWindow.toNat ∧
        bit (wd ws 0) 16 = v.rateValid ∧ wd64 ws 1 = v.rateLatchFirst.toNat ∧
        ∀ i, i < 4 → wd64 ws (3 + 2 * i) = (v.rateLatch.getD i 0).toNat) ∧ Changes [.results] s t))

/-- The telemetry's own rows complete (R298, R299, R302, R303, R315): the previous bank closes once and every running region
counts its records; the conservation check marks the period checked, empties the previous banks and brings a port's
account up to the period; a waiting unit is written when it fits its ring, and otherwise waits on a lossless stream and
is lost on another. -/
def Obligations.TelemetryRowsComplete : Prop :=
  ∀ (s : State),
    (∀ p, s.tally.prev = some p → p.closed = false → Completes .tallyBankClose s fun t => Changes [.regions, .tally] s t ∧
      t.tally.prev = some { p with closed := true } ∧
      ∀ r, r < 4 → s.dieStopped (regionDie r) = false →
        (t.region r).seq = (s.region r).seq + BitVec.ofNat 64 (tget s.tally.banks r {}).prev.length) ∧
    (∀ p, s.tally.prev = some p → p.closed = true → Completes .tallyBankClose s fun t => t = s) ∧
    (∀ p e v, s.tally.prev = some p → p.closed = true → p.checked = false → p.recv = [e] → s.port? e.1 = some v →
      (if e.1 / 512 = 0 then p.westAbsent else p.eastAbsent) = false →
      Completes .conservationCheck s fun t => Changes [.nextPkt, .ports, .arrivals, .tally, .perf, .err, .holds] s t ∧
        (∀ r, (tget t.tally.banks r {}).prev = []) ∧ (∀ q, t.tally.prev = some q → q.checked = true) ∧
        ∃ u, t.port? e.1 = some u ∧ u.lastChecked = p.last ∧
          u.imbalanced = (if (s.balance p e).diff = 0 then v.imbalanced else satAdd 32 v.imbalanced 1)) ∧
    (s.tally.prev = none → Completes .tallyBankClose s (fun t => t = s) ∧ Completes .conservationCheck s (fun t => t = s)) ∧
    (∀ stream consumer u rest, stream < 6 → s.cif.pcieUp = true → popUnit stream s.tally.units = some (u, rest) →
      let r := tget s.tally.rings stream {}
      let n := 4 * u.words.length
      Completes (.dumpUnitWrite stream consumer) s fun t => Changes [.out, .tally, .perf, .holds] s t ∧
        if (r.ready n consumer).1.fits n then
          t.out = s.out ++ [.ringUnit 2 r.fn stream u.words []] ∧ t.tally.units = rest ∧
          (tget t.tally.rings stream {}).producer = r.producer + BitVec.ofNat 64 n
        else if stream < 3 then t.out = s.out ∧ t.tally.units = s.tally.units
        else t.out = s.out ∧ t.tally.units = rest ∧ (tget t.tally.rings stream {}).dropped = r.dropped + 1) ∧
    (∀ stream consumer u rest, stream < 6 → s.cif.pcieUp = false → popUnit stream s.tally.units = some (u, rest) →
      Completes (.dumpUnitWrite stream consumer) s fun t => Changes [.tally] s t ∧
        if stream < 3 then t = s
        else t.tally.units = rest ∧
          (tget t.tally.rings stream {}).dropped = (tget s.tally.rings stream {}).dropped + 1) ∧
    (∀ stream consumer, stream < 6 → popUnit stream s.tally.units = none →
      Completes (.dumpUnitWrite stream consumer) s fun t => t = s)

/-! ### Chapter 12: errors and recovery -/

/-- The commands of group 0x09 but ERR_INJECT complete: ERR_STATUS reads the counts (R406), ERR_CONFIG writes the
configuration of one member or of all (R405), ERR_LOG_READ reads the newest records, oldest first (R404).
ERR_INJECT completes in each mode (R400, R401): CANCEL removes the member's injection; the periodic mode adds one that is due after
its period, INJECTION_PERIOD makes it due then and not before; once and armed add one that is due at once. What an injection that is due
does by itself is the model's inference and choice (DEDUCED, DESIGN CHOICE: log entries 131, 196): the one that a point which is checked
all the time meets acts at once (a forced link fault takes its port out of UP), a single-bit one into a word of a detector of
uncorrectable errors alone is corrected and ends, one into the control store or the block pools is put in place, and the others wait for
an access. -/
def Obligations.ErrorCommandsAndInjectionComplete : Prop :=
  (∀ (c : Cmd) (s : State),
    let det := fld (wd c.words 0) 0 8
    let inst := fld (wd c.words 0) 8 20
    let w1 := wd c.words 1
    let w2 := wd c.words 2
    let w3 := wd c.words 3
    (s.takes 0x0901 c = true → detCount det ≠ 0 → inst < detCount det ∨ inst = 0xFFFFF →
      let sum (f : Detector → Nat) : Nat := ((s.detsOf det inst).map f).foldl (· + ·) 0
      Completes (.errStatus c) s fun t => Changes [.results] s t ∧
        ∃ ws, Replied s t c stOk ws ∧ ws.length = 9 ∧
          wd64 ws 0 = min (sum fun d => d.corrected.toNat) (2 ^ 48 - 1) ∧
          (wd ws 2).toNat = min (sum fun d => d.uncorrected.toNat) (2 ^ 32 - 1) ∧
          (wd ws 3).toNat = min (sum fun d => d.recoveries.toNat) (2 ^ 32 - 1) ∧
          (wd ws 4).toNat = min (sum fun d => d.injected.toNat) (2 ^ 32 - 1) ∧
          fld (wd ws 5) 0 16 = min (sum fun d => if d.failed then 1 else 0) 65535) ∧
    (s.takes 0x0903 c = true → detCount det ≠ 0 → inst < detCount det ∨ inst = 0xFFFFF →
      (if det = 0x06 ∨ det = 0x07 then fld w1 1 4 ≠ 0 else fld w1 1 4 = 3) →
      (if det = 0x10 then fld w2 0 2 ≠ 3 ∧ 10 ≤ fld w2 2 5 ∧ fld w2 2 5 ≤ 24 ∧ fld w2 7 8 ≠ 0 ∧ fld w2 15 8 ≠ 0 ∧
          fld w3 0 8 ≠ 0 ∧ fld w3 8 24 ≠ 0
        else fld w2 0 2 = 0 ∧ fld w2 2 5 = 16 ∧ fld w2 7 8 = 4 ∧ fld w2 15 8 = 16 ∧ fld w3 0 8 = 1 ∧ fld w3 8 24 = 0x100000) →
      Completes (.errConfig c) s fun t =>
        Changes [.free, .out, .lanes, .ports, .queues, .regions, .glaciers, .quotas, .tally, .perf, .err, .parish, .results, .holds] s t ∧
        (det ≠ 0x10 → Changes [.err, .results] s t ∧ t.err.dets = s.err.dets) ∧ Replied s t c stOk [] ∧
        (∀ i, i = inst ∨ (inst = 0xFFFFF ∧ i < detCount det) →
          let n := t.detCfg det i
          n.eventEn = bit w1 0 ∧ n.failLimit.toNat = fld w1 1 4 ∧ n.action.toNat = fld w2 0 2 ∧
          n.windowLog2.toNat = fld w2 2 5 ∧ n.badWindows.toNat = fld w2 7 8 ∧ n.clearWindows.toNat = fld w2 15 8 ∧
          n.uncorrTh.toNat = fld w3 0 8 ∧ n.symTh.toNat = fld w3 8 24) ∧
        (∀ d i, d ≠ det → i ≤ 0xFFFFF → t.detCfg d i = s.detCfg d i)) ∧
    (let first := fld (wd c.words 0) 0 10
     let n := fld (wd c.words 0) 10 11
     s.takes 0x0904 c = true → 1 ≤ n → n ≤ 64 → first + n ≤ 1024 →
      Completes (.errLogRead c) s fun t => Changes [.results] s t ∧
        ∃ ws, Replied s t c stOk ws ∧ ws.length = 8 * n ∧
          ∀ i, i < n → (ws.drop (8 * i)).take 8 = logBack s.err.log (first + n - 1 - i))) ∧
  (∀ (c : Cmd) (s : State),
    let det := fld (wd c.words 0) 0 8
    let inst := fld (wd c.words 0) 8 20
    let w1 := wd c.words 1
    let period := (wd c.words 2).toNat
    let addr := (wd c.words 3).toNat
    let pat := wd64 c.words 5
    let chk := fld (wd c.words 7) 0 16
    let legal : Prop := inst < detCount det ∧ patternOk det addr pat chk = true ∧
      durationOk det (wd c.words 4).toNat = true ∧ (resets det inst = true → bit w1 2 = true) ∧
      (det = dDoubleFree → addr < poolBlocks (inst % 4) ∧ s.blockWrong inst addr pat = false) ∧
      s.err.injections.length < 64 ∧ ∀ j ∈ s.err.injections, j.aim = det → j.inst ≠ inst
    let new (mode : Nat) : Injection :=
      { det := det, inst := inst, mode := mode, count := fld w1 16 16, period := period, address := wd c.words 3
        duration := wd c.words 4, pattern := BitVec.ofNat 64 pat, check := BitVec.ofNat 16 chk, aim := det
        due := decide (mode ≠ 2), since := s.time.runPs }
    let acts (mode : Nat) (t : State) : Prop :=
      Changes [.free, .out, .lanes, .ports, .queues, .parseQ, .arrivals, .regions, .glaciers, .quotas, .tally, .perf, .stw, .err, .parish,
        .aon, .pwr, .results, .holds, .pcieUp] s t ∧
      Replied s t c stOk [] ∧
      (liveDets.contains det = false → det ≠ dDoubleFree → det ≠ dCsUncorrected → (det = dGlacierDesc ∨ (new mode).corrected = false) →
        t.err.injections = s.err.injections ++ [new mode] ∧ Changes [.free, .ports, .regions, .err, .results] s t) ∧
      ((new mode).corrected = true → det ≠ dGlacierDesc → t.err.injections = s.err.injections ∧
        Changes [.err, .results, .tally, .perf, .holds] s t) ∧
      (det = dLinkFault → s.lanePort? inst = some inst → (s.port inst).state = .up → (t.port inst).state = .waitSignal)
    (s.takes 0x0902 c = true → fld w1 0 2 = 0 → inst < detCount det → Completes (.errInjectCancel c) s fun t =>
      Replied s t c stOk [] ∧ (∀ j, j ∈ t.err.injections ↔ j ∈ s.err.injections ∧ ¬(j.aim = det ∧ j.inst = inst)) ∧
      Changes [.results, .err] s t) ∧
    (s.takes 0x0902 c = true → fld w1 0 2 = 1 → legal → period = 0 → Completes (.errInjectOnce c) s (acts 1)) ∧
    (s.takes 0x0902 c = true → fld w1 0 2 = 2 → legal → 1 ≤ period → period ≤ 1000000 →
      Completes (.errInjectPeriodic c) s fun t =>
        Replied s t c stOk [] ∧ Changes [.results, .err] s t ∧ t.err.injections = s.err.injections ++ [new 2]) ∧
    (s.takes 0x0902 c = true → fld w1 0 2 = 3 → legal → period = 0 → Completes (.errInjectArmed c) s (acts 3)) ∧
    (∀ d i, i < detCount d → (∀ j ∈ s.err.injections, j.aim = d → j.inst = i → j.mode ≠ 2) →
      Completes (.injectionPeriod d i) s fun t => t = s) ∧
    (∀ d i j, i < detCount d →
      (s.err.injections.find? fun j => decide (j.aim = d) && decide (j.inst = i) && decide (j.mode = 2)) = some j →
      let next := j.since + j.period * 1000000
      (s.time.runPs < next → Completes (.injectionPeriod d i) s fun t => t = s) ∧
      (next ≤ s.time.runPs → Completes (.injectionPeriod d i) s fun t =>
        Changes [.free, .out, .lanes, .ports, .queues, .parseQ, .arrivals, .regions, .glaciers, .quotas, .tally, .perf, .stw, .err, .parish,
          .aon, .pwr, .holds, .pcieUp] s t ∧
        (liveDets.contains j.det = false → (j.det = dGlacierDesc ∨ j.corrected = false) →
          t.err.injections = (s.err.injections.map fun x => if x = j then { j with due := true, since := next } else x) ∧
          Changes [.err] s t))))

/-- The detections in stored data complete (R381, R382, R385, R174, R175, R379): each is counted for its member, the packet that
holds a lost cell ends, a cell that fails its test is retired, a state word is rewritten in place, a link word from its twin, and a
counter of which both copies are lost counts no more. How an access meets a pattern that waits there is the model's inference (DEDUCED:
log entries 161, 131), and so is what reads a link word (log entry 163); which row brings QUEUE_LINK_UE is the model's choice (DESIGN
CHOICE: log entry 157). -/
def Obligations.StoredDataErrorsComplete : Prop :=
  ∀ (s : State) (r : Nat), r < 4 →
    (∀ b w n ok, b < 64 → w < 4 → n < 1280 →
      let cell := cellAt b w n
      let i := r * 64 + b
      let u := ((s.eccReal [0x01, 0x02] 0x02 i cell).loseCell r cell).1
      Completes (.granaryUe r b w n ok) s fun t =>
        Changes [.free, .out, .ports, .queues, .arrivals, .regions, .glaciers, .quotas, .tally, .perf, .err, .holds] s t ∧
        (t.det 0x02 i).uncorrected = satAdd 32 (u.det 0x02 i).uncorrected 1 ∧
        (t.det 0x02 i).recoveries = satAdd 32 (u.det 0x02 i).recoveries 1 ∧
        (t.det 0x02 i).failed = ((u.det 0x02 i).failed || !ok) ∧
        (t.region r).retired = (if ok then (u.region r).retired else tins (u.region r).retired cell ()) ∧
        (s.holder r cell = none → t.queues = s.queues ∧ t.ports = s.ports)) ∧
    (∀ corrected, (∀ n ∈ corrected, n < 327680) →
      (∀ b, b < 64 → s.noPattern 0x01 (r * 64 + b) ∧ s.noPattern 0x02 (r * 64 + b)) →
      Completes (.granaryScrub r corrected []) s fun t =>
        Changes [.tally, .perf, .err, .holds] s t ∧
        ∀ b, b < 64 → (t.det 0x01 (r * 64 + b)).corrected.toNat =
          min (2 ^ 48 - 1) ((s.det 0x01 (r * 64 + b)).corrected.toNat +
            (corrected.filter fun n => decide (cellBank n = b)).length)) ∧
    (∀ n ok, n < 327680 → (∀ b, b < 64 → s.noPattern 0x01 (r * 64 + b) ∧ s.noPattern 0x02 (r * 64 + b)) →
      let u := (s.loseCell r n).1
      let i := r * 64 + cellBank n
      Completes (.granaryScrub r [] [(n, ok)]) s fun t =>
        (t.det 0x02 i).uncorrected = satAdd 32 (u.det 0x02 i).uncorrected 1) ∧
    (s.noPattern 0x04 r → s.noPattern 0x05 r →
      (∀ n, Completes (.tableScrub r n none) s fun t =>
        Changes [.free, .tbl, .tally, .perf, .err, .holds] s t ∧
        (t.det 0x04 r).corrected.toNat = min (2 ^ 48 - 1) ((s.det 0x04 r).corrected.toNat + n)) ∧
      (∀ n a, Completes (.tableScrub r n (some a)) s fun t =>
        (t.det 0x05 r).uncorrected = satAdd 32 (s.det 0x05 r).uncorrected 1 ∧ t.queues = s.queues ∧ t.parseQ = s.parseQ)) ∧
    (∀ a pkt, let u := s.dropLookup pkt
      Completes (.tableUe r a pkt) s fun t =>
        Changes [.free, .nextPkt, .ports, .parseQ, .parse, .tbl, .tally, .perf, .err, .holds, .epochs] s t ∧
        (t.det 0x05 r).uncorrected = satAdd 32 (u.det 0x05 r).uncorrected 1 ∧
        ∀ b, (u.copyOf r).rebuilding = none → u.lender r = some b →
          (t.copyOf r).borrowFrom = some b ∧ (t.copyOf r).rebuilding ≠ none) ∧
    (∀ i, i < 65536 → Completes (.regionStateUe r (.meter i)) s fun t =>
      (t.meter r i).tokC = (s.meter r i).cbs.toNat * 2 ^ 32 ∧ (t.meter r i).tokE = (s.meter r i).ebs.toNat * 2 ^ 32) ∧
    (∀ q, queueRegion q = r → Completes (.regionStateUe r (.queueShaper q)) s fun t =>
      (t.queue q).shaper.credit = (s.queue q).shaper.burst.toNat * 2 ^ 32) ∧
    (∀ p, laneRegion p = r → s.hasPort p = true → Completes (.regionStateUe r (.portShaper p)) s fun t =>
      (t.port p).shaper.credit = (s.port p).shaper.burst.toNat * 2 ^ 32) ∧
    (∀ q v, queueRegion q = r → (s.queue q).headF = some v → Completes (.regionStateUe r (.headTag q)) s fun t =>
      (t.queue q).headF = some ((s.port (queuePort q)).vOf q)) ∧
    (∀ p express, laneRegion p = r → s.hasPort p = true → Completes (.regionStateUe r (.virtualTime p express)) s fun t =>
      (if express then (t.port p).vExpress else (t.port p).vOrdinary) = 0) ∧
    (∀ w : RegionWord, w = .allocatorCount ∨ w = .counterCopy → Completes (.regionStateUe r w) s fun t =>
      Changes [.free, .ports, .queues, .regions, .meters, .tally, .perf, .err, .holds] s t ∧
      (t.det 0x08 r).uncorrected = satAdd 32 (s.det 0x08 r).uncorrected 1 ∧ t.queues = s.queues ∧ t.ports = s.ports ∧
      t.meters = s.meters ∧ (w = .allocatorCount → (t.region r).recount.length = (s.region r).recount.length + 1)) ∧
    (∀ a, (s.region r).badLinks = [] → s.noPattern 0x03 r → Completes (.regionStateUe r (.linkCopy a)) s fun t =>
      Changes [.free, .regions, .tally, .perf, .err, .holds] s t ∧ (t.region r).badLinks = [] ∧
      (t.det 0x03 r).uncorrected = satAdd 32 (s.det 0x03 r).uncorrected 1 ∧
      (t.det 0x03 r).recoveries = satAdd 32 (s.det 0x03 r).recoveries 1) ∧
    (∀ c, Completes (.regionStateUe r (.counterBoth c)) s fun t =>
      (t.det 0x08 r).uncorrected = satAdd 32 (s.det 0x08 r).uncorrected 1 ∧
      match c with
      | .perf i => (tget t.tally.perf i {}).count.frozen = true ∧ (tget t.tally.perf i {}).count.sticky = true
      | .mac p i => s.hasPort p = true → i ∈ (t.port p).macFrozen
      | .parser p i => s.hasPort p = true → i ∈ (t.port p).parserFrozen
      | .meter i k =>
        (if k = 0 then (t.meter r i).green else if k = 1 then (t.meter r i).yellow else (t.meter r i).red).frozen = true
      | .hits i => ∀ v, tget? (t.classRegion r).rules i = some v → v.hits.frozen = true
      | .histogram q b => b ∈ (t.queue q).histFrozen
      | .tally p => s.hasPort p = true → (t.port p).cumFrozen = true) ∧
    Completes (.allocatorCountRecomputed r) s (fun t =>
      Changes [.regions, .tally, .perf, .err, .holds] s t ∧ (t.region r).recount = [] ∧
      ((s.region r).recount = [] → t.region r = s.region r ∧ Changes [.regions] s t))

/-- The recoveries of clusters, the glacier and the die-to-die link complete (R384, R215, R386, R388, R389). That a failed cluster is not
recovered again, that a failed link drops the crossing packets on their way to admission, and that 16 consecutive failed replays of a
channel begin the test of its wires are the model's inferences (DEDUCED: log entries 135, 138, 194). -/
def Obligations.ClusterGlacierLinkErrorsComplete : Prop :=
  ∀ (s : State),
    (∀ k egress parity, k < 16 → thas s.err.failedClusters k = false →
      Completes (.clusterRecovery k egress parity) s fun t =>
        Changes [.free, .nextPkt, .ports, .parseQ, .tally, .perf, .err, .holds] s t ∧
        thas t.err.fences (2 * k + if egress then 1 else 0) = true) ∧
    (∀ k egress parity, k < 16 → thas s.err.failedClusters k = true →
      Completes (.clusterRecovery k egress parity) s fun t =>
        Changes [.free, .nextPkt, .ports, .parseQ, .tally, .perf, .err, .holds] s t ∧ t.err.fences = s.err.fences ∧ t.queues = s.queues ∧
        t.ports = s.ports ∧ t.parseQ = s.parseQ) ∧
    (∀ k egress, k < 16 → Completes (.fenceLift k egress) s fun t =>
      Changes [.free, .out, .nextPkt, .lanes, .ports, .queues, .arrivals, .regions, .glaciers, .quotas, .tally, .perf, .stw, .err, .parish, .pwr, .holds] s t ∧
      thas t.err.fences (2 * k + if egress then 1 else 0) = false ∧
      (thas s.err.fences (2 * k + if egress then 1 else 0) = false → t = s)) ∧
    (∀ q keep k, q < 16384 → (s.queue q).glacier[keep]? = some k → Completes (.glacierDescUe q keep) s fun t =>
      Changes [.queues, .glaciers, .tally, .perf, .err, .holds] s t ∧
      (t.queue q).glacier = (s.queue q).glacier.take keep ∧
      (t.glacier (q / 8192)).orphans = (s.glacier (q / 8192)).orphans ++ (s.queue q).glacier.drop keep) ∧
    (∀ q keep, q < 16384 → (s.queue q).glacier[keep]? = none → Completes (.glacierDescUe q keep) s fun t => t = s) ∧
    (∀ d, d < 2 → Completes (.poolAuditDone d) s fun t =>
      Changes [.free, .out, .ports, .queues, .regions, .glaciers, .quotas, .tally, .perf, .err, .holds] s t ∧
      (t.glacier d).orphans = [] ∧ (t.glacier d).audits = []) ∧
    (∀ n, n < 4 → Completes (.glacierStackFail n) s fun t => Changes [.queues, .glaciers, .tally, .perf, .err, .holds] s t ∧
      (t.glacier (n / 2)).failed = true ∧ (t.det 0x0C n).failed = true ∧
      ∀ q ∈ tkeys s.queues, q / 8192 = n / 2 → (t.queue q).glacier = []) ∧
    (∀ f : BadFlit, f.channel < 64 → Completes (.d2dCrc f) s fun t =>
      let n := f.channel
      (t.det 0x0D n).corrected = satAdd 48 (s.det 0x0D n).corrected 1 ∧
      (t.det 0x0D n).recoveries = satAdd 32 (s.det 0x0D n).recoveries 1 ∧
      tget t.err.channels n {} =
        { flits := min 256 (f.behind + 1), failed := if f.again then (tget s.err.channels n {}).failed + 1 else 0 } ∧
      Changes [.err, .holds, .perf, .free] s t) ∧
    (∀ n w, n < 64 → w < 132 →
      let spent := tget s.err.spares n 0 + 1
      ((tget s.err.channels n {}).failed < 16 → Completes (.d2dWire n w) s fun t => t = s) ∧
      (16 ≤ (tget s.err.channels n {}).failed → spent < 5 → Completes (.d2dWire n w) s fun t =>
        tget t.err.spares n 0 = spent ∧ t.err.retired = s.err.retired ∧ tget t.err.channels n {} = {} ∧
        Changes [.err, .holds, .perf, .free] s t) ∧
      (16 ≤ (tget s.err.channels n {}).failed → 5 ≤ spent → Completes (.d2dWire n w) s fun t =>
        tget t.err.spares n 0 = spent ∧ thas t.err.retired n = true ∧
        (∀ k, k ≠ n → thas t.err.retired k = thas s.err.retired k) ∧
        (t.healthyChannels (n / 32) < 26 → (s.det 0x0F (n / 32)).failed = false → t.err.linkDown ≠ none) ∧
        Changes [.ports, .arrivals, .tally, .perf, .err, .holds] s t)) ∧
    (∀ d, d < 2 → s.healthyChannels d < 26 → (s.det 0x0F d).failed = false → Completes (.d2dLinkDown d) s fun t =>
      Changes [.ports, .arrivals, .tally, .perf, .err, .holds] s t ∧
      t.err.linkDown ≠ none ∧ (t.det 0x0F d).failed = true ∧ (s.err.linkDown = none →
        ∀ k ∈ t.arrivals, (k.egress.getD 0) / 512 = (k.ingress.getD 0) / 512)) ∧
    (∀ d, d < 2 → (26 ≤ s.healthyChannels d ∨ (s.det 0x0F d).failed = true) → Completes (.d2dLinkDown d) s fun t => t = s) ∧
    (∀ l, (∀ n ∈ l, n < 64) → Completes (.d2dRetrain l) s fun t => Changes [.tally, .perf, .err, .holds] s t ∧
      (∀ n ∈ l, thas t.err.retired n = false) ∧ (∀ n, n ∉ l → thas t.err.retired n = thas s.err.retired n) ∧
      (t.err.linkDown = none ↔ s.err.linkDown = none ∨ (26 ≤ t.healthyChannels 0 ∧ 26 ≤ t.healthyChannels 1)))

/-- The detections of links, stewards, clocks and the surroundings complete (R390 to R396, R380): an FEC window counts bad and
good windows, a link fault takes a port in UP out of it, an engine that hangs is counted, a lost clock moves to the standby,
and a trip, a voltage out of range or a lost reference resets the device. How a window counts its codewords, that a DEGRADED port under
action 2 waits in ALIGN, and the member of CMD_BUF_UE are the model's inferences and choices (DEDUCED, DESIGN CHOICE: log entries 188,
195, 139). -/
def Obligations.LinkAndSurroundingErrorsComplete : Prop :=
  ∀ (s : State),
    (∀ p beyond errs v, p < 1024 → s.port? p = some v → (v.state = .up ∨ v.state = .align ∧ s.degradeHeld p = true) → v.hasFec = true →
      (∀ j ∈ s.err.injections, j.det ≠ 0x10) →
      let c := s.detCfg 0x10 p
      let u := max (b2n v.uncorrSeen) (beyond + (errs.filter fun n => !fecCorrects n).length)
      let y := (errs.filter fun n => decide (0 < n) && fecCorrects n).foldl (· + ·) 0
      let bad := c.uncorrTh.toNat ≤ u ∨ c.symTh.toNat ≤ y
      Completes (.fecDegradeWindow p beyond errs) s fun t =>
        Changes [.free, .out, .lanes, .ports, .queues, .regions, .glaciers, .quotas, .tally, .perf, .err, .parish, .holds] s t ∧
        (bad → (v.degraded = true ∨ v.badWin + 1 < c.badWindows.toNat) →
          (t.port p).badWin = v.badWin + 1 ∧ (t.port p).goodWin = 0 ∧ (t.port p).degraded = v.degraded) ∧
        (bad → v.degraded = false → c.badWindows.toNat ≤ v.badWin + 1 → (t.port p).degraded = true) ∧
        (¬ bad → v.degraded = true → c.clearWindows.toNat ≤ v.goodWin + 1 → (t.port p).degraded = false)) ∧
    (∀ p beyond errs, p < 1024 →
      (∀ v, s.port? p = some v → v.state ≠ .up ∧ ¬(v.state = .align ∧ s.degradeHeld p = true) ∨ v.hasFec = false) →
      Completes (.fecDegradeWindow p beyond errs) s fun t => t = s) ∧
    (∀ p v, p < 1024 → s.port? p = some v → Completes (.linkFault p) s fun t =>
      Changes [.free, .out, .lanes, .ports, .queues, .regions, .glaciers, .quotas, .tally, .perf, .err, .parish, .holds] s t ∧
      (t.port p).state = (if v.state = .up then .waitSignal else v.state) ∧ (t.port p).alarming = some 0 ∧
      (t.port p).alarmSeq = v.alarmSeq + 1) ∧
    (∀ e, e < 5 → (s.engine e).state = .reset ∨ (s.engine e).state = .loading →
      Completes (.stewardWatchdog e) s fun t => t = s) ∧
    (∀ e, e < 5 → (s.engine e).state = .running → s.stw.patch = none → s.cif.flights = [] →
      Completes (.stewardWatchdog e) s fun t =>
        Changes [.free, .out, .tbl, .tally, .perf, .stw, .err, .pwr, .flights, .results, .holds] s t ∧
        (t.engine e).damaged = [] ∧ (t.engine e).causes = [] ∧
        (t.det 0x12 e).uncorrected = satAdd 32 (s.det 0x12 e).uncorrected 1 ∧
        (t.det 0x12 e).recoveries = satAdd 32 (s.det 0x12 e).recoveries 1) ∧
    (∀ d g, d < 39 → clockGroup d = some g → s.pwr.onStandby.getLsbD d = false → Completes (.clockLoss d) s fun t =>
      Changes [.free, .out, .lanes, .ports, .queues, .arrivals, .regions, .glaciers, .quotas, .tally, .perf, .err, .parish, .aon, .pwr, .holds, .pcieUp] s t ∧
      t.pwr.onStandby = s.pwr.onStandby ||| groupBits g ∧ t.pwr.clkFailed = s.pwr.clkFailed ∧
      (t.det 0x16 d).uncorrected = satAdd 32 (s.det 0x16 d).uncorrected 1) ∧
    (∀ d g, d < 39 → clockGroup d = some g → s.pwr.onStandby.getLsbD d = true → Completes (.clockLoss d) s fun t =>
      Changes [.free, .out, .lanes, .ports, .queues, .arrivals, .regions, .glaciers, .quotas, .tally, .perf, .err, .parish, .aon, .pwr, .holds, .pcieUp] s t ∧
      t.pwr.clkFailed = s.pwr.clkFailed ||| groupBits g ∧ (t.det 0x16 d).failed = true) ∧
    Completes (.clockLoss 39) s (fun t =>
      Changes [.free, .out, .lanes, .ports, .queues, .arrivals, .regions, .glaciers, .quotas, .tally, .perf, .err, .parish, .aon, .pwr, .holds, .pcieUp] s t ∧
      t.aon.refPresent = false) ∧
    (s.aon.refPresent = false → s.held 0x16 39 = false → Completes .referenceRestored s fun t =>
      Changes [.tally, .perf, .err, .aon, .holds] s t ∧ t.aon.refPresent = true) ∧
    ((s.aon.refPresent = true ∨ s.held 0x16 39 = true) → Completes .referenceRestored s fun t => t = s) ∧
    (s.started = true → s.aon.refPresent = false → Completes .referenceLossTimeout s fun t =>
      t.aon.stage = 2 ∧ t.aon.lastReset = 4 ∧ t.pwr.ready = false) ∧
    (s.aon.refPresent = true → Completes .referenceLossTimeout s fun t => t = s) ∧
    (∀ n x, n < 29 → Completes (.thermalWarn n x) s fun t => Changes [.tally, .perf, .err, .aon, .holds] s t ∧
      thas t.aon.warned n = (if thas s.aon.warned n then
          !decide (s.heatWith 0x17 n x < ((s.pwr.warnC.toNat : Int) - s.pwr.hystC.toNat) * 8)
        else decide ((s.pwr.warnC.toNat : Int) * 8 < s.heatWith 0x17 n x))) ∧
    (∀ n x, n < 29 → s.started = true → 1080 < s.heatWith 0x18 n x → Completes (.thermalTrip n x) s fun t =>
      t.aon.lastReset = 2 ∧ (2#3) ∈ t.aon.hold ∧ t.pwr.ready = false) ∧
    (∀ n x, n < 29 → s.heatWith 0x18 n x ≤ 1080 → Completes (.thermalTrip n x) s fun t =>
      Changes [.tally, .perf, .err, .holds] s t ∧ (s.noPattern 0x18 n → t = s) ∧
        ∀ j ∈ t.err.injections, j.det = 0x18 → j.inst = n → j.due = true →
          1 < (s.err.injections.filter fun i => decide (i.det = 0x18) && decide (i.inst = n) && i.due).length) ∧
    (∀ n (mv : Nat), n < 8 → s.started = true → railOut n ((mv : Int) + s.offset 0x19 n).toNat = true → Completes (.voltageOor n mv) s fun t =>
      t.aon.lastReset = 3 ∧ (3#3) ∈ t.aon.hold ∧ t.pwr.ready = false) ∧
    (∀ n (mv : Nat), n < 8 → railOut n ((mv : Int) + s.offset 0x19 n).toNat = false → Completes (.voltageOor n mv) s fun t =>
      Changes [.tally, .perf, .err, .holds] s t ∧ (s.noPattern 0x19 n → t = s)) ∧
    (∀ src q tag f, (s.cif.flights.find? fun f => isTag src q tag f && !f.rejected) = some f → f.phase = .running →
      s.hasResult f.cmd = false → s.inTask f.cmd = false → Completes (.cmdBufUe src q tag) s fun t =>
        Changes [.free, .out, .tally, .perf, .stw, .err, .pwr, .flights, .holds] s t ∧
        (t.det 0x1A (senderChannel src)).uncorrected = satAdd 32 (s.det 0x1A (senderChannel src)).uncorrected 1) ∧
    (∀ src q tag, (∀ f ∈ s.cif.flights, isTag src q tag f = true → f.rejected = true) →
      Completes (.cmdBufUe src q tag) s fun t => t = s)

/-! ### Chapter 11: stewards -/

/-- The commands of group 0x0A complete (R363, R371 to R373, R376, R377): STEWARD_STATUS reads an engine, MICROCODE_LOAD moves
the staging buffer through its states and answers the refusal cause of an image, STEWARD_PATCH starts a patch and leaves its
reply for the handback, STEWARD_TRACE_READ reads the newest entries.
The events of the stewards complete (R369, R370, R372 to R374): a micro-trap is taken by an engine that runs, CS_UNCORRECTED by the
repair ROM at once and the others by the entry of a handler, and waits while a microword is stalled or the store is loaded; a patch goes
from the quiesce to the load, the verify and the handback, with the new image or with the old one. How a handler is entered and what it
saves is the model's inference (DEDUCED: log entry 108), and so is that a patch keeps the image staged at STEWARD_PATCH (log entry 115). -/
def Obligations.StewardRowsComplete : Prop :=
  (∀ (c : Cmd) (s : State),
    let w0 := wd c.words 0
    let w1 := wd c.words 1
    let e := c.unit.toNat
    (s.takes 0x0A01 c = true → Completes (.stewardStatus c) s fun t =>
      (∃ ws, Replied s t c stOk ws ∧ ws.length = 9 ∧ fld (wd ws 0) 0 3 = (s.engine e).state.code ∧
        wd ws 1 = (s.engine e).image.version ∧ wd ws 5 = (s.engine e).traps ∧
        fld (wd ws 6) 0 16 = (s.engine e).repairs.toNat ∧ fld (wd ws 6) 16 16 = (s.engine e).patches.toNat) ∧
      Changes [.results] s t) ∧
    (s.takes 0x0A02 c = true → fld w0 0 2 = 0 → 32 ≤ fld w1 0 20 → fld w1 0 20 ≤ 336144 → s.stw.patch = none →
      Completes (.microcodeLoadBegin c) s fun t => Replied s t c stOk [] ∧ t.stw.staging = .filling ∧
        t.stw.length = fld w1 0 20 ∧ t.stw.bytes = [] ∧ t.stw.staged = none ∧ t.stw.engines = s.stw.engines ∧
        Changes [.results, .stw] s t) ∧
    (let got := s.stw.bytes.length
     let bs := dataBytes c (s.stw.length - got)
     s.takes 0x0A02 c = true → fld w0 0 2 = 1 → s.stw.staging = .filling → fld w1 0 20 = got →
      got + bs.length ≤ s.stw.length →
      Completes (.microcodeLoadData c) s fun t => Replied s t c stOk [] ∧ t.stw.bytes = s.stw.bytes ++ bs ∧
        t.stw.staging = (if got + bs.length = s.stw.length then .filled else .filling) ∧ t.stw.engines = s.stw.engines ∧
        Changes [.results, .stw] s t) ∧
    (s.takes 0x0A02 c = true → fld w0 0 2 = 2 → w1 = 0 → s.stw.staging ≠ .valid →
      let k := imageCause 1 s.aon.level s.stw.bytes
      Completes (.microcodeLoadEnd c) s fun t =>
        (k = 0 → Replied s t c stOk [0, imageVersion s.stw.bytes] ∧ t.stw.staging = .valid ∧
          t.stw.staged = some (imageOf s.stw.bytes)) ∧
        (k ≠ 0 → Replied s t c stBadParam [word k, 0] ∧ t.stw.staging = .filled ∧ t.stw.staged = s.stw.staged) ∧
        t.stw.engines = s.stw.engines ∧ Changes [.results, .stw] s t) ∧
    (s.takes 0x0A02 c = true → fld w0 0 2 = 3 → w1 = 0 →
      let bs := s.slotRegion (bit w0 2)
      let k := imageCause 1 s.aon.level bs
      Completes (.microcodeLoadFromSlot c) s fun t =>
        (k = 0 → Replied s t c stOk [0, imageVersion bs] ∧ t.stw.staging = .valid ∧ t.stw.staged = some (imageOf bs)) ∧
        (k ≠ 0 → Replied s t c stBadParam [word k, 0] ∧ t.stw.staging = .empty) ∧
        t.stw.engines = s.stw.engines ∧ Changes [.results, .stw] s t) ∧
    (∀ i, s.takes 0x0A03 c = true → e ≠ 0 → s.stw.staged = some i → s.stw.staging = .valid → w1 = i.version →
      i.taskFmt = (s.engine e).image.taskFmt → s.stw.patch = none →
      Completes (.stewardPatch c) s fun t =>
        Changes [.tally, .perf, .stw, .results, .holds] s t ∧ NoReply s t ∧ (t.engine e).state = .quiescing ∧
        (t.engine e).image = (s.engine e).image ∧
        ∃ p, t.stw.patch = some p ∧ p.region = e - 1 ∧ p.image = i ∧ p.oldImage = (s.engine e).image ∧ p.phase = 0 ∧ p.cmd = c) ∧
    (let first := fld w0 0 10
     let n := fld w0 10 9
     s.takes 0x0A04 c = true → 1 ≤ n → n ≤ 256 → Completes (.stewardTraceRead c) s fun t =>
      (∃ ws, Replied s t c stOk ws ∧ ws.length = 2 * n ∧
        ∀ i, i < n → (ws.drop (2 * i)).take 2 = traceBack (s.engine e).trace (first + n - 1 - i)) ∧ Changes [.results] s t)) ∧
  (∀ (s : State),
    (∀ e k, e < 5 → 1 ≤ k → k ≤ 4 → (s.engine e).state = .running ∨ (s.engine e).state = .quiescing → (s.engine e).causes = [] →
      (s.engine e).stalled = false → (s.engine e).saved = none → Completes (.microTrap e k) s fun t =>
        Changes [.free, .out, .tally, .perf, .stw, .err, .pwr, .flights, .holds] s t ∧
        (t.engine e).traps = (s.engine e).traps + 1 ∧ (t.engine e).causes = [] ∧
        (t.engine e).state = (s.engine e).state ∧ (t.engine e).image = (s.engine e).image ∧
        (k = 1 → (t.engine e).micro = (s.engine e).micro ∧ (t.engine e).saved = none) ∧
        (k ≠ 1 → (t.engine e).saved.isSome = true ∧ (t.engine e).handler = k ∧ (t.engine e).micro.pc = BitVec.ofNat 14 k)) ∧
    (∀ e k, e < 5 → 1 ≤ k → k ≤ 4 → (s.engine e).causes = [] →
      ((s.engine e).state = .patching ∨ (s.engine e).state = .running ∧ (s.engine e).stalled = true) →
      Completes (.microTrap e k) s fun t => (t.engine e).causes = [k] ∧ (t.engine e).traps = (s.engine e).traps ∧ Changes [.stw] s t) ∧
    (∀ e k, e < 5 → 1 ≤ k → k ≤ 4 → (s.engine e).state = .reset → Completes (.microTrap e k) s fun t => t = s) ∧
    (∀ r p, r < 4 → s.stw.patch = some p → p.region = r → p.phase = 0 → s.quiet (1 + r) = true →
      Completes (.patchLoad r) s fun t => Changes [.stw] s t ∧
        t.stw.patch = some { p with phase := 1, tasks := (s.engine (1 + r)).tasks } ∧ (t.engine (1 + r)).state = .patching ∧
        (t.engine (1 + r)).damaged = [] ∧ (t.engine (1 + r)).image.words = p.image.words ∧
        (t.engine (1 + r)).image.version = (s.engine (1 + r)).image.version) ∧
    (∀ r, r < 4 → s.quiet (1 + r) = false → Completes (.patchLoad r) s fun t => t = s) ∧
    (∀ r p same, r < 4 → s.stw.patch = some p → p.region = r → p.phase = 1 → Completes (.patchVerify r same) s fun t =>
      t.stw.patch = some { p with phase := if same = true ∧ (s.engine (1 + r)).damaged = [] then 2 else 3 } ∧ t.stw.engines = s.stw.engines ∧ Changes [.stw] s t) ∧
    (∀ r p, r < 4 → s.stw.patch = some p → p.region = r → p.phase = 2 → Completes (.patchDone r) s fun t =>
      Changes [.free, .out, .tally, .perf, .stw, .err, .pwr, .flights, .results, .holds] s t ∧
      t.stw.patch = none ∧ (t.engine (1 + r)).state = .running ∧ (t.engine (1 + r)).image = p.image ∧
      (t.engine (1 + r)).patches = satAdd 16 (s.engine (1 + r)).patches 1 ∧
      Replied s t p.cmd stOk []) ∧
    (∀ r p, r < 4 → s.stw.patch = some p → p.region = r → p.phase = 3 → Completes (.patchFailed r) s fun t =>
      Changes [.free, .out, .tally, .perf, .stw, .err, .pwr, .flights, .results, .holds] s t ∧
      t.stw.patch = none ∧ (t.engine (1 + r)).state = .running ∧ (t.engine (1 + r)).image = p.oldImage ∧
      (t.engine (1 + r)).patches = (s.engine (1 + r)).patches ∧ Replied s t p.cmd stHwFault []) ∧
    (∀ r, r < 4 → s.stw.patch = none → Completes (.patchLoad r) s (fun t => t = s) ∧
      (∀ same, Completes (.patchVerify r same) s (fun t => t = s)) ∧ Completes (.patchDone r) s (fun t => t = s) ∧
      Completes (.patchFailed r) s (fun t => t = s)))

/-! ### Chapter 13: the parish -/

/-- The commands of group 0x0B complete (R407, R409, R416, R427, R431, R432, Tables 13-7 to 13-12). That MANAGER_GEN stays when
PARISH_CONFIG gives the role to a manager that is not deposed is the model's inference (DEDUCED: log entry 151). That STANDBY_DEVICE is
taken in any role, where Table 13-7 says MANAGER only, and that PROTECT_GROUP_WRITE judges the switch at the write, are its
inferences too (DEDUCED: log entries 152, 153). -/
def Obligations.ParishCommandsComplete : Prop :=
  ∀ (c : Cmd) (s : State), s.levelHere c = true →
    let w0 := wd c.words 0
    let w1 := wd c.words 1
    let w2 := wd c.words 2
    (let role := fld w1 0 3
     let dev := fld w1 3 14
     let vote := fld w2 16 7
     let timeout := fld w2 23 3
     s.takes 0x0B01 c = true → role < 5 → (role ≤ 1 → dev = 0) → (2 ≤ role → dev ≠ 0 ∧ s.time.source = 2) →
      (role ≠ 0 → fld w2 0 16 ≠ 0) → 2 ≤ vote → vote ≤ 64 → 2 ≤ timeout → timeout ≤ 5 →
      Completes (.parishConfig c) s fun t =>
        Changes [.out, .ports, .parse, .tbl, .tally, .perf, .parish, .results, .holds, .epochs] s t ∧
        t.cif.results.getLast? = some (t.mkReply c stOk [] false) ∧
        t.parish.role.toNat = role ∧ t.parish.device.toNat = dev ∧ t.parish.parishId.toNat = fld w2 0 16 ∧
        t.parish.voteBeats.toNat = vote ∧ t.parish.mgrTimeout.toNat = timeout ∧
        t.parish.standby.toNat = fld (wd c.words 3) 0 14 ∧ t.parish.eventCode.toNat = fld (wd c.words 3) 14 8 ∧
        t.parish.summaryCode.toNat = fld (wd c.words 3) 22 8 ∧
        t.parish.managerGen = (if role = 1 ∧ (s.parish.role ≠ 1 ∨ s.parish.deposed = true) then s.parish.managerGen + 1
          else s.parish.managerGen)) ∧
    (∀ v, let p := fld w0 0 10
      let role := fld w1 1 3
      let hops := fld w1 5 2
      s.takes 0x0B03 c = true → s.port? p = some v → (bit w1 0 = true → 4134 ≤ v.maxFrame.toNat) → role < 4 →
      hops = 1 ∨ hops = 2 → (s.parish.role = 1 → role ≠ 1 ∧ role ≠ 2) → (role = 1 ∨ role = 2 → s.roleTaken p role = false) →
      (role = 3 → (s.childPorts.filter fun x => x ≠ p).length < 128) →
      Completes (.relayConfig c) s fun t => Replied s t c stOk [] ∧
        (∃ u, t.port? p = some u ∧ u.riwenEn = bit w1 0 ∧ u.portRole.toNat = role ∧ u.alarmEn = bit w1 4 ∧
          u.alarmHops.toNat = hops ∧ u.riwenQueue.toNat = fld w1 7 4 ∧ u.state = v.state) ∧
        SameBut [p] s.ports t.ports ∧ Changes [.results, .ports, .parish] s t) ∧
    (s.takes 0x0B02 c = true → Completes (.parishStatus c) s fun t =>
      (∃ ws, Replied s t c stOk ws ∧ ws.length = 8 ∧ fld (wd ws 0) 0 3 = s.parish.role.toNat ∧
        fld (wd ws 0) 3 2 = s.activeUp ∧ bit (wd ws 0) 5 = s.parish.deposed ∧ fld (wd ws 0) 10 14 = s.parish.device.toNat ∧
        (wd ws 1).toNat = s.parish.managerGen.toNat ∧ fld (wd ws 4) 0 16 = s.parish.actEpoch.toNat ∧
        wd ws 7 = s.parish.rejects) ∧ Changes [.results] s t) ∧
    (s.takes 0x0B05 c = true → Completes (.parishMemberRead c) s fun t =>
      (∃ ws, Replied s t c stOk ws ∧ ws.length = 128 ∧
        ∀ i, i < 4096 → bit (wd ws (i / 32)) (i % 32) = (s.subtree (fld w0 0 2)).getLsbD i) ∧ Changes [.results] s t) ∧
    (let g := fld w0 1 10
     let a := fld w1 0 10
     let b := fld w1 10 10
     s.takes 0x0B04 c = true → bit w0 0 = false → g < 256 → fld w0 11 2 = 0 → fld w1 22 10 = 0 → a ≠ b → w2.toNat ≤ 3600 →
      (∀ e ∈ s.parish.groups, e.1 ≠ g → e.2.working.toNat ≠ a) →
      Completes (.protectGroupWrite c) s fun t => Replied s t c stOk [] ∧
        (∃ v, tget? t.parish.groups g = some v ∧ v.working.toNat = a ∧ v.protect.toNat = b ∧ v.enable = bit w1 20 ∧
          v.revertive = bit w1 21 ∧ v.wtr.toNat = w2.toNat ∧
          v.switched = (bit w1 20 && s.outOfUse a && s.isUp b && !s.remoteDown b)) ∧
        SameBut [g] s.parish.groups t.parish.groups ∧ Changes [.results, .parish, .holds, .perf] s t) ∧
    (s.takes 0x0B04 c = true → bit w0 0 = true → fld w1 25 7 = 0 → w2 = 0 →
      Completes (.watchSlotWrite c) s fun t => Replied s t c stOk [] ∧
        (let v := tget t.parish.watches (fld w0 1 10 * 4 + fld w0 11 2) {}
         v.dev.toNat = fld w1 0 14 ∧ v.port.toNat = fld w1 14 10 ∧ v.valid = bit w1 24) ∧
        SameBut [fld w0 1 10 * 4 + fld w0 11 2] s.parish.watches t.parish.watches ∧ Changes [.results, .parish] s t)

/-- Every Riwen row meets the checks of R411: on a device without a role, or a port without RIWEN_EN, it does nothing; a frame of
another VERSION or PARISH_ID, or of a wrong length, only counts as rejected, and changes nothing else at all.
A frame of a TYPE that Table 13-3 does not have counts as rejected at its end, with the receipt and the tally of any frame consumed
(R411); that its check stands there is the model's inference (DEDUCED: log entry 145). -/
def Obligations.RiwenFramesAreChecked : Prop :=
  (∀ (h : Riwen) (s : State) (i : Instr), h.port < 1024 →
    ((∃ b, i = .riwenCommand h b) ∨ (∃ b, i = .riwenReply h b) ∨ (∃ b, i = .riwenEvent h b) ∨ (∃ b n, i = .bell h b n) ∨
      (∃ a b, i = .delayReq h a b) ∨ (∃ a b d e f, i = .delayResp h a b d e f) ∨ (∃ a b d, i = .hello h a b d) ∨
      (∃ a b, i = .prepare h a b) ∨ (∃ a b d e, i = .vote h a b d e) ∨ (∃ a b, i = .commit h a b) ∨
      (∃ a, i = .commitAck h a) ∨ (∃ a b, i = .abort h a b) ∨ (∃ a b d e f g, i = .linkAlarm h a b d e f g) ∨
      (∃ b, i = .tallySummary h b)) →
    ((s.hasRole = false ∨ (s.port h.port).riwenEn = false) → Completes i s fun t => t = s) ∧
    (s.hasRole = true → (s.port h.port).riwenEn = true →
      (h.version ≠ 1 ∨ h.parishId ≠ s.parish.parishId ∨ h.lenOk = false) →
      Completes i s fun t => t = { s with parish := { s.parish with rejects := satAdd 32 s.parish.rejects 1 } })) ∧
  (∀ (s : State) (p len : Nat) (data : List Byte) (check : FrameCheck) (v : Port) (x : Rx), p < 1024 → s.port? p = some v → v.rx = some x →
    x.wait = none → x.discard = false → s.isRiwen p data = true → riwenTypes.contains (byteAt data 15).toNat = false →
    frameRow len x.maxFrame (v.fcsHolds check) = 7 →
    Completes (.rxFrameEnd p len data check) s fun t =>
      Changes [.free, .nextPkt, .ports, .arrivals, .tally, .perf, .err, .parish, .holds] s t ∧
      t.parish = { s.parish with rejects := satAdd 32 s.parish.rejects 1 } ∧ ∃ u, t.port? p = some u ∧ u.rx = none)

/-- The Riwen rows complete with an accepted frame (R409, R414 to R419, R421 to R426, R430, R433); `u` is the state once its MANAGER_GEN
is seen (R411, R427). An EVENT or a TALLY_SUMMARY goes to the host of the manager, and up the tree from a relay. That a reply with a bad
trailer is ignored, the sender number of a stale manager and what names a PREPARE are the model's inferences (DEDUCED: log entries 153,
144, 197), and so are the frame that an EVENT or TALLY_SUMMARY row takes and the sender and MANAGER_GEN that a relayed frame keeps (log
entries 145, 143). -/
def Obligations.RiwenRowsComplete : Prop :=
  ∀ (h : Riwen) (s : State), h.port < 1024 → s.hasRole = true → (s.port h.port).riwenEn = true → s.riwenOk h = true →
    let u := s.seeGen h.managerGen
    let taken (code : Option Nat) := (s.consumeRiwen h.port code).seeGen h.managerGen
    let me := h.all = true ∨ h.dstDevice = u.parish.device
    (∀ bs, h.all = false → h.dstDevice = u.parish.device → u.parish.stored = [] → u.cif.flights = [] →
      Completes (.riwenCommand h bs) s fun t =>
        Changes [.nextPkt, .arrivals, .tally, .perf, .parish, .flights, .holds] s t ∧
        ∃ f, t.cif.flights = [f] ∧ f.cmd = parseCmd (u.inbandSender h) bs) ∧
    (∀ bs, u.parish.role = 1 → replyCrcOk bs = false → Completes (.riwenReply h bs) s fun t => t = u) ∧
    (∀ bs f, u.parish.role = 1 → replyCrcOk bs = true →
      (u.cif.flights.find? fun f => match f.phase with
        | .forwarded n _ => decide (n = natAt bs 4 2 % 4096) | _ => false) = some f →
      f.rejected = false → f.discard = false → f.cmd.noReply = false → (byteAt bs 0).toNat ≠ stPending →
      Completes (.riwenReply h bs) s fun t =>
        Changes [.out, .nextPkt, .arrivals, .tally, .perf, .parish, .flights, .holds] s t ∧
        ∃ g ∈ t.cif.flights, g.cmd = f.cmd ∧ g.phase = .done ∧ g.reply.map (·.status) = some (byteAt bs 0)) ∧
    (∀ bs, s.parish.role ≠ 1 → s.parish.role ≠ 3 →
      Completes (.riwenEvent h bs) s (fun t => t = taken none) ∧ Completes (.tallySummary h bs) s (fun t => t = taken none)) ∧
    (∀ bs code (i : Instr), s.parish.role = 1 →
      (i = .riwenEvent h bs ∧ code = s.parish.eventCode ∨ i = .tallySummary h bs ∧ code = s.parish.summaryCode) →
      Completes i s fun t => Changes [.nextPkt, .ports, .riwenQ, .tally, .perf, .parish, .holds] s t ∧
        t = taken (some code.toNat) ∧
        ∀ k rest, takeWaiting h.port s.riwenQ = some (k, rest) → s.hostRoom (s.codeFn code.toNat) k.len = true →
          t.riwenQ = rest ∧ ∃ x ∈ tget t.tally.hostPath (s.codeFn code.toNat) [], x.pkt = k ∧ x.code = code ∧ x.trap = true) ∧
    (∀ bs typ p (i : Instr), let u := taken none
      u.relays = true → u.upstream = some p → u.riwenPort p = true →
      (i = .riwenEvent h bs ∧ typ = 0x03 ∨ i = .tallySummary h bs ∧ typ = 0x40) →
      Completes i s fun t => Changes [.nextPkt, .arrivals] u t ∧
        ∃ k, t.arrivals = u.arrivals ++ [k] ∧ k.egress = some p ∧ k.qidx = (u.port p).riwenQueue ∧
          k.data = riwenBytes u p typ h.srcDevice.toNat 0 h.managerGen bs) ∧
    (∀ b n, (u.hasUpstream = false ∨ ((u.port h.port).portRole ≠ 1 ∧ (u.port h.port).portRole ≠ 2)) →
      Completes (.bell h b n) s fun t => t = u) ∧
    (∀ b n, u.hasUpstream = true → (u.port h.port).portRole = 1 ∨ (u.port h.port).portRole = 2 → (u.noteBell h).upstream = some h.port →
      Completes (.bell h b n) s fun t =>
        Changes [.free, .out, .nextPkt, .ports, .queues, .arrivals, .parse, .tbl, .regions, .glaciers, .time, .tally, .perf, .stw, .err, .parish, .pwr, .holds, .epochs] s t ∧
        t.parish.depth.toNat = min 7 (h.depth.toNat + 1) ∧ t.parish.bellMgr = h.managerGen ∧ t.parish.masterId = b.masterId) ∧
    (∀ a n, (u.port h.port).portRole = 3 → u.parish.role = 1 → u.riwenPort h.port = true → (u.port h.port).tx = none →
      Completes (.delayReq h a n) s fun t =>
        Changes [.free, .out, .ports, .tally, .perf, .parish, .holds] s t ∧
        ∃ f, t.out = u.out ++ [.riwen h.port 0x12 h.srcDevice.toNat f]) ∧
    (∀ a n, (u.port h.port).portRole ≠ 3 → Completes (.delayReq h a n) s fun t => t = u) ∧
    (∀ a n t1 t2 t3 t4, (u.port h.port).portRole = 1 → u.parish.reqOut = some (a, n) → u.time.beatRun ≤ n + 1 →
      (t4 - t1) * u.time.beats.toNat ≤ 10 ^ 9 * 65536 →
      Completes (.delayResp h a t1 t2 t3 t4) s fun t =>
        t.parish = { u.parish with delays := delaySample u.parish.delays t1 t2 t3 t4, reqOut := none } ∧ Changes [.parish] u t) ∧
    (∀ g m b, u.children.contains h.port = true → g < 4 → Completes (.hello h g m b) s fun t =>
      tget? t.parish.children (h.port * 4 + g) = some { bits := bitmapOf b, beat := u.time.beatRun } ∧
      t.parish.helloSeen = (u.parish.helloSeen || m) ∧ Changes [.out, .ports, .tally, .perf, .parish, .holds] u t ∧
      (u.parish.role ≠ 3 → Changes [.parish] u t)) ∧
    (∀ g m b, u.children.contains h.port = false → Completes (.hello h g m b) s fun t => t = u) ∧
    (∀ e d, u.parish.role = 1 → Completes (.prepare h e d) s fun t => t = u) ∧
    (∀ e d, u.parish.role ≠ 1 → me → u.parish.voted ≠ some (e, d) → Completes (.prepare h e d) s fun t =>
      Changes [.out, .ports, .tally, .perf, .parish, .holds, .epochs] s t ∧
      t.parish.seenPrepare = some e ∧ t.parish.voted = some (e, d)) ∧
    (∀ e d, me → u.parish.voted = some (e, d) → Completes (.prepare h e d) s fun t => t = u) ∧
    (∀ e g r b a, u.parish.role = 1 → u.parish.act = some a → a.epoch = e → g < 4 → a.awaitAck = true →
      u.children.contains h.port = true →
      Completes (.vote h e g r b) s fun t => Changes [.parish] u t ∧
        ∃ x, t.parish.act = some x ∧
          (r = true → tget x.refused g 0 = tget a.refused g 0 ||| bitmapOf b ∧ x.prepared = a.prepared) ∧
          (r = false → tget x.prepared g 0 = tget a.prepared g 0 ||| bitmapOf b ∧ x.refused = a.refused)) ∧
    (∀ e g r b, u.parish.act = none → Completes (.vote h e g r b) s fun t => t = u) ∧
    (∀ e b x, u.parish.role ≠ 1 → u.parish.role ≠ 3 → me → u.epoch? e.toNat = some x → x.prepared = true →
      u.time.tooLate b.toNat = false → Completes (.commit h e b) s fun t =>
        Changes [.out, .ports, .tally, .perf, .parish, .holds, .epochs] s t ∧
        t.epoch? e.toNat = some { x with thaw := b, prepared := false, committed := some b } ∧
        (u.parish.role = 2 → h.all = false → t.parish.ackedCommit = some (e, b))) ∧
    (∀ e a, u.relays = false → u.parish.act = some a → a.awaitAck = true → a.epoch = e →
      Completes (.commitAck h e) s fun t =>
        Changes [.out, .ports, .parse, .tbl, .tally, .perf, .parish, .results, .holds, .epochs] s t ∧
        t.parish.act = none) ∧
    (∀ e, u.relays = false → u.parish.act = none → Completes (.commitAck h e) s fun t => t = u) ∧
    (∀ e k x, u.parish.role ≠ 1 → u.parish.role ≠ 3 → me → u.epoch? e.toNat = some x → x.state = .staging →
      Completes (.abort h e k) s fun t =>
        Changes [.out, .ports, .parse, .tbl, .tally, .perf, .parish, .holds, .epochs] s t ∧
        t.epoch? e.toNat = none) ∧
    (∀ d o down k q n, Completes (.linkAlarm h d o down k q n) s fun t =>
      Changes [.out, .ports, .tally, .perf, .parish, .holds] s t ∧
      let marked (p : Nat) := (t.port p).remoteDown.any fun x => decide (x.1 = d) && decide (x.2.1 = o)
      (down = true → ∀ p ∈ u.watching d o, u.hasPort p = true → marked p = true) ∧ (down = false → ∀ p, marked p = false))

/-- The timers of the parish complete (R418, R422 to R424, R427, R429 to R432). That beats of age are counted by the boundaries passed,
and not by beat numbers, is the model's choice (DESIGN CHOICE: log entry 214). -/
def Obligations.ParishTimersComplete : Prop :=
  ∀ (s : State),
    (s.parish.act = none → Completes .voteDeadline s (fun t => t = s) ∧ Completes .activationDeadline s (fun t => t = s) ∧
      Completes .standbyAckTimeout s (fun t => t = s)) ∧
    (∀ a, s.parish.act = some a → s.parish.role = 3 → a.sent = false →
      s.time.boundary a.deadline.toNat ≤ s.time.ns + (4 - s.parish.depth.toNat) * 50000 →
      Completes .voteDeadline s fun t =>
        Changes [.out, .ports, .tally, .perf, .parish, .holds] s t ∧ t.parish.act = some { a with sent := true }) ∧
    (∀ a, s.parish.act = some a → s.parish.role = 1 → a.awaitAck = false → a.deadline.toNat ≤ s.time.beat.toNat →
      Completes .activationDeadline s fun t =>
        Changes [.out, .ports, .parse, .tbl, .tally, .perf, .parish, .results, .holds, .epochs] s t ∧
        t.parish.act = none ∧ t.parish.actPhase = 3 ∧ t.parish.actEpoch = a.epoch) ∧
    (∀ a, s.parish.act = some a → s.parish.role = 1 → a.awaitAck = true → a.strict = false →
      Completes .standbyAckTimeout s fun t =>
        Changes [.out, .ports, .parse, .tbl, .tally, .perf, .parish, .results, .holds, .epochs] s t ∧
        t.parish.act = none ∧ t.parish.actPhase = 2 ∧ t.parish.actEpoch = a.epoch) ∧
    (∀ n f k, n < 4096 → (s.cif.flights.find? fun f => match f.phase with | .forwarded t _ => decide (t = n) | _ => false) =
        some f → f.phase = .forwarded n k → k < 8 → Completes (.commandResend n) s fun t =>
          Changes [.out, .nextPkt, .arrivals, .tally, .perf, .flights] s t ∧
      { f with phase := .forwarded n (k + 1) } ∈ t.cif.flights) ∧
    (∀ n, n < 4096 → s.cif.flights = [] → Completes (.commandResend n) s fun t => t = s) ∧
    (s.parish.role = 3 ∨ s.parish.role = 4 → s.parish.lost = false →
      s.parish.lastRun + s.parish.mgrTimeout.toNat ≤ s.time.beatRun → Completes .managerLost s fun t =>
        t.parish = { s.parish with lost := true } ∧ Changes [.parish, .holds, .perf] s t) ∧
    (s.parish.role ≠ 3 → s.parish.role ≠ 4 → Completes .managerLost s fun t => t = s) ∧
    (s.parish.role = 2 → s.parish.helloSeen = false →
      s.parish.lastRun + s.parish.mgrTimeout.toNat + 1 ≤ s.time.beatRun → Completes .standbyTakeover s fun t =>
        Changes [.out, .ports, .parse, .tbl, .tally, .perf, .parish, .holds, .epochs] s t ∧
        t.parish.role = 1 ∧ t.parish.device = 0 ∧ t.parish.managerGen = s.parish.managerGen + 1 ∧ t.parish.deposed = false) ∧
    (s.parish.role ≠ 2 → Completes .standbyTakeover s fun t => t = s) ∧
    (∀ p v k, p < 1024 → s.port? p = some v → v.alarming = some k → v.state ≠ .up → Completes (.alarmRepeat p) s fun t =>
      Changes [.out, .ports, .tally, .perf, .holds] s t ∧
      (t.port p).alarmReps = v.alarmReps + 1 ∧ (t.port p).alarming = some k) ∧
    (∀ p v k, p < 1024 → s.port? p = some v → v.alarming = some k → v.state = .up → Completes (.alarmRepeat p) s fun t =>
      Changes [.out, .ports, .tally, .perf, .holds] s t ∧
      (v.alarmUps < 2 → (t.port p).alarming = some k ∧ (t.port p).alarmUps = v.alarmUps + 1) ∧
      (2 ≤ v.alarmUps → (t.port p).alarming = none)) ∧
    (∀ p, p < 1024 → Completes (.remoteDownExpiry p) s fun t => Changes [.ports, .tally, .perf, .parish, .holds] s t ∧
      ∀ o ∈ (t.port p).remoteDown, o ∈ (s.port p).remoteDown ∧ s.time.beatRun < o.2.2 + 3072) ∧
    (∀ g v, g < 256 → tget? s.parish.groups g = some v → v.enable = true → v.switched = true → v.revertive = true →
      s.outOfUse v.working.toNat = false → Completes (.wtrExpiry g) s fun t =>
        tget? t.parish.groups g = some { v with switched := false } ∧ Changes [.parish, .holds, .perf] s t) ∧
    (∀ g, g < 256 → tget? s.parish.groups g = none → Completes (.wtrExpiry g) s fun t => t = s)

/-! ### Chapters 14 and 15: power, clocks, dies, journal, identity -/

/-- The commands of group 0x0C and the events of the supply and the clocks complete (R436, R438, R441, R32 to R35, R445). The model's
readings, not the rules' words: VID moves one code a step, toward CEILING with AVS_EN clear (log entry 127); a DIE_READY whose image fails
its checks leaves the die held (log entry 129); BRANCH_STOP also stops a port block that is needed no more (log entry 199). -/
def Obligations.PowerRowsComplete : Prop :=
  ∀ (c : Cmd) (s : State),
    let w0 := wd c.words 0
    let w := wd c.words 1
    let b := if c.level = 1 then c.unit.toNat else fld w0 2 7
    (s.takes 0x0C01 c = true → Completes (.powerStatus c) s fun t => Changes [.results, .free] s t ∧
      ∃ ws, Replied s t c stOk ws ∧ ws.length = 25 ∧ fld (wd ws 8) 0 7 = s.pwr.vid.toNat ∧ bit (wd ws 8) 7 = s.pwr.atCeiling) ∧
    (s.takes 0x0C02 c = true → 60 ≤ fld w 0 8 → fld w 0 8 ≤ 125 → fld w 8 4 ≠ 0 → Completes (.thermalConfig c) s fun t =>
      Replied s t c stOk [] ∧ t.pwr.warnC.toNat = fld w 0 8 ∧ t.pwr.hystC.toNat = fld w 8 4 ∧ Changes [.results, .pwr] s t) ∧
    (s.takes 0x0C03 c = true → Completes (.clockStatus c) s fun t => Changes [.results, .free] s t ∧
      ∃ ws, Replied s t c stOk ws ∧ ws.length = 7 ∧ wd64 ws 2 = s.pwr.onStandby.toNat ∧ wd64 ws 4 = s.pwr.clkFailed.toNat ∧
        bit (wd ws 6) 0 = s.aon.refPresent) ∧
    (s.takes 0x0C05 c = true → fld w 1 7 ≤ fld w 8 7 → fld w 8 7 ≤ 100 → Completes (.avsConfig c) s fun t =>
      Replied s t c stOk [] ∧ t.pwr.avsEn = bit w 0 ∧ t.pwr.floor.toNat = fld w 1 7 ∧ t.pwr.ceiling.toNat = fld w 8 7 ∧
      t.pwr.margin.toNat = fld w 15 5 ∧ t.pwr.vid = s.pwr.vid ∧ Changes [.results, .pwr] s t) ∧
    (s.takes 0x0C04 c = true → fld w0 0 2 = 0 → c.level = 0 → s.dieStopped (b / 64) = false →
      Completes (.keepRunning c) s fun t => Replied s t c stOk [] ∧ thas t.pwr.keepOn b = true ∧
        thas t.pwr.blocksOn b = true ∧ Changes [.results, .pwr] s t) ∧
    (s.takes 0x0C04 c = true → fld w0 0 2 = 1 → c.level = 0 → s.dieStopped (b / 64) = false → s.blockUsed b = false →
      Completes (.allowStop c) s fun t => Replied s t c stOk [] ∧ thas t.pwr.keepOn b = false ∧
        thas t.pwr.blocksOn b = false ∧ Changes [.results, .pwr] s t) ∧
    (s.takes 0x0C04 c = true → fld w0 0 2 = 2 → c.level = 1 → fld w0 2 7 = 0 → s.die (1 - b) = .running →
      s.die b = .running → s.patchesDie b = false → Completes (.dieHold c) s fun t =>
        Changes [.out, .lanes, .ports, .queues, .parseQ, .riwenQ, .arrivals, .parse, .tbl, .regions, .glaciers, .quotas, .meters, .tally, .perf, .stw, .err, .parish, .pwr, .flights, .results, .holds, .epochs, .free] s t ∧
        Replied s t c stOk [] ∧
        t.die b = .held ∧ t.die (1 - b) = .running ∧
        (∀ k ∈ t.arrivals, ∀ p, k.egress = some p → p / 512 ≠ b) ∧ (∀ p v, t.port? p = some v → p / 512 = b → v.tx = none)) ∧
    (s.takes 0x0C04 c = true → fld w0 0 2 = 3 → c.level = 1 → fld w0 2 7 = 0 → s.die b = .held →
      Completes (.dieRelease c) s fun t =>
        Changes [.ports, .parse, .tbl, .tally, .perf, .pwr, .results, .holds, .epochs] s t ∧
        Replied s t c stOk [] ∧ t.die b = .restarting) ∧
    (∀ n, s.started = true → s.aon.hold = [] → 5 ≤ s.aon.stage.toNat → s.aon.stage ≠ 9 → s.VidInv →
      Completes (.avsStep n) s fun t =>
        let target := if s.pwr.avsEn then max s.pwr.floor.toNat (min s.pwr.ceiling.toNat (n + s.pwr.margin.toNat))
          else s.pwr.ceiling.toNat
        t.pwr.vid.toNat = (if s.pwr.vid.toNat < target then s.pwr.vid.toNat + 1
          else if target < s.pwr.vid.toNat then s.pwr.vid.toNat - 1 else s.pwr.vid.toNat) ∧
        Changes [.pwr, .holds, .perf] s t) ∧
    (∀ n, (s.started = false ∨ s.aon.stage.toNat < 5) → Completes (.avsStep n) s fun t => t = s) ∧
    (∀ n, n < 128 → s.pwr.ready = true → s.dieStopped (n / 64) = false → Completes (.clockWake (.block n)) s fun t =>
      thas t.pwr.blocksOn n = true ∧ t.pwr.mclkOn = s.pwr.mclkOn ∧ Changes [.pwr] s t) ∧
    (s.pwr.ready = true → Completes (.clockWake .mclk) s fun t =>
      t.pwr.mclkOn = true ∧ t.pwr.blocksOn = s.pwr.blocksOn ∧ Changes [.pwr] s t) ∧
    Completes .branchStop s (fun t => t.pwr.mclkOn = false ∧
      (∀ n, s.blockNeeded n = true → thas t.pwr.blocksOn n = thas s.pwr.blocksOn n) ∧
      (∀ n, s.blockNeeded n = false → thas t.pwr.blocksOn n = false) ∧ Changes [.pwr] s t) ∧
    (∀ r : DieTraining, r.die < 2 → s.die r.die = .restarting → s.aon.hostBoot = false →
      let d := r.die
      let k := imageCause 1 s.aon.level (s.slotRegion s.aon.running)
      Completes (.dieReady r) s fun t =>
        Changes [.arrivals, .err, .free, .glaciers, .holds, .perf, .ports, .pwr, .queues, .stw, .tally, .tbl] s t ∧
        (k = 0 → t.die d = .running ∧ (t.engine (1 + 2 * d)).state = .running ∧ (t.engine (2 + 2 * d)).state = .running ∧
          (t.engine (1 + 2 * d)).image = imageOf (s.slotRegion s.aon.running)) ∧
        (k ≠ 0 → t.die d = .held ∧ t.stw = s.stw ∧ t.ports = s.ports)) ∧
    (∀ r : DieTraining, r.die < 2 → s.die r.die ≠ .restarting → Completes (.dieReady r) s fun t => t = s)

/-- The commands of group 0x0D, IDENTIFY, BEHAVIOUR_SELECT and the rows of the seconds complete (R284, R450 to R454, R461 to
R464). The model's readings, not the rules' words: an erased slot is EMPTY, it is WRITING from its first DATA, and how many bytes each of
its images may have (log entry 120); the sequence number of a stepping other than A1 (log entry 158). -/
def Obligations.JournalAndIdentityRowsComplete : Prop :=
  ∀ (c : Cmd) (s : State),
    let w0 := wd c.words 0
    let slotB := bit w0 2
    (s.takes 0x0D01 c = true → fld w0 0 2 = 0 → Completes (.journalRead c) s fun t => Changes [.results] s t ∧
      ∃ ws, Replied s t c stOk ws ∧ ws.length = 3 ∧ fld (wd ws 0) 0 4 = s.aon.stage.toNat ∧
        bit (wd ws 0) 8 = s.aon.running ∧ bit (wd ws 0) 10 = s.aon.flashAbsent ∧ wd ws 1 = word s.aon.newestSeq) ∧
    (∀ r, s.takes 0x0D01 c = true → s.aon.flashAbsent = false →
      (fld w0 0 2 = 1 ∧ (s.aon.journal.find? fun r => decide ((wd c.words 1).toNat ≤ r.seq.toNat) && r.committed) = some r) ∨
        (fld w0 0 2 = 2 ∧ newestRec s.aon.journal (wd c.words 1).toNat = some r) →
      Completes (.journalRead c) s fun t => Replied s t c stOk r.replyWords ∧ Changes [.results] s t) ∧
    (let n := fld w0 8 11
     s.takes 0x0D02 c = true → 1 ≤ n → n ≤ 1024 → n ≤ 4 * (c.words.length - 1) → s.aon.flashAbsent = false →
      Completes (.journalAppend c) s fun t => Changes [.results, .aon] s t ∧
        (∃ w, Replied s t c stOk [w]) ∧
        ∃ r, t.aon.journal.getLast? = some r ∧ r.committed = true ∧ r.rtype.toNat = 0x0100 + fld w0 0 8 ∧
          r.payload = (wordsToBytes (c.words.drop 1)).take n) ∧
    (s.takes 0x0D03 c = true → fld w0 0 2 = 0 → wd c.words 1 = 0 → s.aon.flashAbsent = false → s.aon.runs slotB = false →
      (s.slot slotB).state ≠ .erasing → s.aon.openSlot = none → Completes (.imageWriteBegin c) s fun t =>
        Replied s t c stOk [] ∧ (t.slot slotB).state = .erasing ∧ t.aon.openSlot = some slotB ∧
        t.slot (!slotB) = s.slot (!slotB) ∧ Changes [.results, .aon] s t) ∧
    (let region := bit w0 3
     let got := if region then (s.slot slotB).region else (s.slot slotB).central
     let bs := wordsToBytes (c.words.drop 2)
     s.takes 0x0D03 c = true → fld w0 0 2 = 1 → s.aon.flashAbsent = false → s.aon.runs slotB = false →
      (s.slot slotB).state ≠ .erasing → s.aon.openSlot = some slotB → fld (wd c.words 1) 0 20 = got.length →
      got.length + bs.length ≤ slotRoom region → Completes (.imageWriteData c) s fun t =>
        Replied s t c stOk [] ∧ (t.slot slotB).state = .writing ∧
        (if region then (t.slot slotB).region else (t.slot slotB).central) = got ++ bs ∧
        t.slot (!slotB) = s.slot (!slotB) ∧ Changes [.results, .aon] s t) ∧
    (s.takes 0x0D03 c = true → fld w0 0 2 = 2 → wd c.words 1 = 0 → s.aon.flashAbsent = false → s.aon.runs slotB = false →
      (s.slot slotB).state ≠ .erasing → s.aon.openSlot = some slotB →
      let level := s.aon.armed.getD s.aon.level
      Completes (.imageWriteFinish c) s fun t => t.aon.openSlot = none ∧ t.slot (!slotB) = s.slot (!slotB) ∧
        (imageCause 0 level (s.slot slotB).central = 0 → imageCause 1 level (s.slot slotB).region = 0 →
          Replied s t c stOk [] ∧ (t.slot slotB).state = .complete ∧ (t.slot slotB).committed = true) ∧
        (imageCause 0 level (s.slot slotB).central ≠ 0 ∨ imageCause 1 level (s.slot slotB).region ≠ 0 →
          (∃ w, Replied s t c stBadParam [w]) ∧ (t.slot slotB).state = .invalid) ∧ Changes [.results, .aon] s t) ∧
    (s.takes 0x0D04 c = true → s.aon.flashAbsent = false → (s.slot (bit w0 0)).state = .complete →
      Completes (.imageSelect c) s fun t => Replied s t c stOk [] ∧ t.aon.selected = bit w0 0 ∧
        t.pwr.restart = (s.pwr.restart || bit w0 1) ∧ Changes [.results, .aon, .pwr] s t) ∧
    (s.takes 0x0D05 c = true → Completes (.imageStatus c) s fun t => Changes [.results] s t ∧
      ∃ ws, Replied s t c stOk ws ∧ ws.length = 9 ∧ fld (wd ws 0) 0 3 = s.aon.slotA.state.code ∧
        fld (wd ws 0) 3 3 = s.aon.slotB.state.code ∧ bit (wd ws 0) 6 = s.aon.running ∧ bit (wd ws 0) 7 = s.aon.selected) ∧
    (∀ n, n < 2 → (s.slot (decide (n = 1))).state = .erasing → Completes (.slotEraseDone n) s fun t =>
      t.slot (decide (n = 1)) = {} ∧ Changes [.aon, .holds, .perf] s t) ∧
    (s.aon.vaux = true → Completes .powerOnSecond s fun t =>
      t.aon.powerOn.toNat = min (2 ^ 40 - 1) (s.aon.powerOn.toNat + 1) ∧
      t.aon.sinceVaux.toNat = min (2 ^ 32 - 1) (s.aon.sinceVaux.toNat + 1) ∧ Changes [.aon] s t) ∧
    (s.aon.vaux = true → s.aon.flashAbsent = false → s.aon.powerOn.toNat % 3600 = 0 → Completes .powerOnSave s fun t =>
      t.aon.savedSeconds = s.aon.powerOn.toNat ∧ t.aon.powerOn = s.aon.powerOn ∧ Changes [.aon] s t) ∧
    (s.takes 0x0101 c = true → Completes (.identify c) s fun t => Changes [.results] s t ∧
      ∃ ws, Replied s t c stOk ws ∧ ws.length = 22 ∧ fld (wd ws 0) 0 16 = 0x1024 ∧ fld (wd ws 1) 8 8 = s.aon.level.toNat ∧
        bit (wd ws 1) 25 = true ∧ bit (wd ws 1) 26 = s.aon.armed.isSome ∧ wd64 ws 2 = Config.deviceUid.toNat ∧
        (∀ e, e < 5 → wd ws (4 + e) = (s.engine e).image.version) ∧ fld (wd ws 21) 0 28 = 0x102456B ∧
        (Config.stepping = 0x11 → fld (wd ws 21) 28 4 = 1)) ∧
    (s.takes 0x0102 c = true → fld w0 0 2 = 0 → fld w0 2 8 ≠ 0 → fld w0 2 8 ≤ Config.maxLevel.toNat → s.aon.openSlot = none →
      s.aon.flashAbsent = false → Completes (.behaviourArm c) s fun t => Replied s t c stOk [] ∧
        t.aon.armed = some (BitVec.ofNat 8 (fld w0 2 8)) ∧ t.aon.level = s.aon.level ∧ Changes [.results, .aon] s t) ∧
    (∀ l, s.takes 0x0102 c = true → fld w0 0 2 = 1 → fld w0 2 8 = 0 → s.aon.armed = some l → s.aon.flashAbsent = false →
      (s.slot (!s.aon.running)).state = .complete → byteAt (s.slot (!s.aon.running)).central 12 = l →
      byteAt (s.slot (!s.aon.running)).region 12 = l → Completes (.behaviourCommit c) s fun t =>
        Changes [.aon, .pwr, .results] s t ∧ Replied s t c stOk [] ∧
        t.aon.armed = none ∧ t.aon.journalLevel = l ∧ t.aon.selected = !s.aon.running ∧ t.pwr.restart = true ∧
        t.aon.level = s.aon.level) ∧
    (s.takes 0x0102 c = true → fld w0 0 2 = 2 → fld w0 2 8 = 0 → Completes (.behaviourDisarm c) s fun t =>
      Replied s t c stOk [] ∧ t.aon.armed = none ∧ Changes [.results, .aon] s t)

/-! ### Chapter 10: the configuration commands of group 0x01 -/

/-- The configuration commands of group 0x01 complete (R329, R337, R339, R349, R353, R356, R359 to R362). That EVENT_CONFIG and
HOST_RING_CONFIG take a BASE and a CTRL of any alignment is the model's inference (DEDUCED: log entry 27).
The activation commands complete (R354, R355, R420): ACTIVATE at level 0 schedules a staged epoch, at level 6 it begins a
parish activation whose reply comes later; EPOCH_ABANDON drops an epoch and its staged changes, and at level 6 answers TIME_PASSED once the
activation is decided. -/
def Obligations.InterfaceCommandsComplete : Prop :=
  (∀ (c : Cmd) (s : State),
    let w0 := wd c.words 0
    let w1 := wd c.words 1
    (s.takes 0x0103 c = true → Completes (.nop c) s fun t => Replied s t c stOk [] ∧ Changes [.results] s t) ∧
    (s.takes 0x0104 c = true → s.channelClear c = true → Completes (.barrier c) s fun t =>
      Replied s t c stOk [] ∧ Changes [.results] s t) ∧
    (let q := fld w0 0 4
     let fn := fld w0 5 4
     let z := fld w1 1 5
     s.takes 0x0105 c = true → s.ownFn c fn = true → q ≠ 0 → 12 ≤ z → z ≤ 24 → ringAligned c.words = true →
      (bit w1 0 = false → ∀ f ∈ s.cif.flights, f.cmd.src = .pcie fn → f.cmd ≠ c → f.rejected = true) →
      Completes (.queueConfig c) s fun t => Replied s t c stOk [] ∧
        (let r := if bit w0 4 then t.rplRing fn q else t.cmdRing fn q
         r.en = bit w1 0 ∧ r.sizeLog2.toNat = z ∧ r.base.toNat = wd64 c.words 2 ∧ r.ctrl.toNat = wd64 c.words 4 ∧
         r.producer = 0 ∧ r.consumer = 0 ∧ r.stopped = false ∧ (bit w0 4 = false → r.replyQ.toNat = fld w1 6 4)) ∧
        (∀ k, k ≠ q → t.rplRing fn k = s.rplRing fn k ∧ t.cmdRing fn k = s.cmdRing fn k) ∧
        (∀ g, g ≠ fn → t.func g = s.func g) ∧ Changes [.results, .funcs] s t) ∧
    (let e := fld w0 0 16
     s.takes 0x0106 c = true → e ≠ 0 → s.levelHere c = true → Completes (.epochStatus c) s fun t => Changes [.results] s t ∧
      (s.epoch? e = none → Replied s t c stOk [0, 0, 0, 0]) ∧
      ∀ x, s.epoch? e = some x → ∃ a b d f, Replied s t c stOk [a, b, d, f] ∧ fld a 0 2 = x.state.code ∧ b = word x.changes ∧
        (x.state = .scheduled → d.toNat + f.toNat * 2 ^ 32 = x.thaw.toNat)) ∧
    (let f := fld w0 0 5
     s.takes 0x0109 c = true → f ≠ 0 → f < 16 → fld w1 1 2 = 0 → Completes (.functionRights c) s fun t =>
      Replied s t c stOk [] ∧ tget t.cif.rights f {} = { config := bit w1 0, map := mapOf ((c.words.drop 2).take 32) } ∧
      SameBut [f] s.cif.rights t.cif.rights ∧ Changes [.results, .rights] s t) ∧
    (s.takes 0x0109 c = true → fld w0 0 5 = 16 → bit w1 0 = false → fld w1 1 2 ≤ s.cif.mgmtPriv.toNat →
      Completes (.functionRights c) s fun t => Replied s t c stOk [] ∧ t.cif.mgmtPriv.toNat = fld w1 1 2 ∧
        (tget t.cif.rights 16 {}).map = mapOf ((c.words.drop 2).take 32) ∧ SameBut [16] s.cif.rights t.cif.rights ∧
        Changes [.results, .rights, .mgmtPriv] s t) ∧
    (let d := fld w0 0 5
     let z := fld w1 15 5
     s.takes 0x010A c = true → d ≤ 17 → (s.cmdPriv c < 3 → d = ownDest c.src) →
      (16 ≤ d → bit w1 14 = false ∧ z = 0 ∧ wd64 c.words 2 = 0 ∧ wd64 c.words 4 = 0) →
      (bit w1 14 = true → 16 ≤ z ∧ z ≤ 30) → Completes (.eventConfig c) s fun t => Replied s t c stOk [] ∧
        (∀ g, 1 ≤ g → g < 14 → (tget t.cif.dests d {}).mask.getLsbD g = bit w1 g) ∧
        (d < 16 → (tget t.cif.dests d {}).ring.en = bit w1 14 ∧ (tget t.cif.dests d {}).ring.base.toNat = wd64 c.words 2) ∧
        SameBut [d] s.cif.dests t.cif.dests ∧ Changes [.results, .dests] s t) ∧
    (∀ fn, let z := fld w1 1 5
      s.takes 0x010B c = true → c.src = .pcie fn → (bit w1 0 = true → 16 ≤ z ∧ z ≤ 30) →
      Completes (.hostRingConfig c) s fun t => Replied s t c stOk [] ∧
        (let r := if bit w0 0 then (t.func fn).hostTx else (t.func fn).hostRx
         r.en = bit w1 0 ∧ r.sizeLog2.toNat = z ∧ r.base.toNat = wd64 c.words 2 ∧ r.ctrl.toNat = wd64 c.words 4 ∧
         r.producer = 0 ∧ r.consumer = 0) ∧
        (if bit w0 0 then (t.func fn).hostRx = (s.func fn).hostRx else (t.func fn).hostTx = (s.func fn).hostTx) ∧
        (∀ g, g ≠ fn → t.func g = s.func g) ∧ Changes [.results, .funcs] s t) ∧
    (s.takes 0x010C c = true → Completes (.hostCodeMap c) s fun t => Replied s t c stOk [] ∧
      (tget t.cif.codeMap (fld w0 0 8) 0).toNat = fld w0 8 4 ∧ SameBut [fld w0 0 8] s.cif.codeMap t.cif.codeMap ∧
      Changes [.results, .codeMap] s t)) ∧
  (∀ (c : Cmd) (s : State),
    let e := fld (wd c.words 0) 0 16
    let b := wd64 c.words 1 % 2 ^ 48
    e ≠ 0 →
    (∀ x, s.takes 0x0107 c = true → c.level = 0 → s.epoch? e = some x → x.state = .staging → s.time.tooLate b = false →
      Completes (.activate c) s fun t => Replied s t c stOk (wordsOf b 2) ∧
        t.epoch? e = some { x with state := .scheduled, thaw := BitVec.ofNat 48 b } ∧ Changes [.results, .epochs] s t) ∧
    (∀ x, s.takes 0x0107 c = true → c.level = 0 → s.epoch? e = some x → x.state = .staging → s.time.tooLate b = true →
      c.strictTime = false → Completes (.activate c) s fun t =>
        t.epoch? e = some { x with state := .scheduled, thaw := BitVec.ofNat 48 s.time.firstFree } ∧
        Changes [.results, .epochs] s t) ∧
    (s.takes 0x0107 c = true → c.level = 6 → s.parish.role = 1 → s.parish.deposed = false → s.parish.act = none →
      (∀ x, s.epoch? e = some x → x.state = .staging) →
      let timed := s.time.state = TimeState.locked ∨ s.time.state = TimeState.holdover
      let others := ∃ g, g < 4 ∧ s.subtree g &&& ~~~ (tget [s.ownBit] g 0) ≠ 0
      Completes (.parishActivate c) s fun t =>
        Changes [.out, .ports, .parse, .tbl, .time, .tally, .perf, .parish, .flights, .results, .holds, .epochs] s t ∧
        t.parish.actEpoch.toNat = e ∧
        (timed → others → NoReply s t ∧ t.parish.actPhase = 1 ∧
          ∃ a, t.parish.act = some a ∧ a.epoch.toNat = e ∧ a.beat.toNat = b ∧ a.cmd = some c ∧ a.awaitAck = false ∧
            a.deadline.toNat = (s.time.beat.toNat + s.parish.voteBeats.toNat) % 2 ^ 48) ∧
        (timed → ¬ others → c.strictTime = false → s.parish.standby = 0 → t.parish.act = none ∧ t.parish.actPhase = 2) ∧
        (¬ timed → t.parish.act = none ∧ t.parish.actPhase = 3)) ∧
    (∀ x, s.takes 0x0108 c = true → c.level = 0 → s.epoch? e = some x →
      x.state = .staging ∨ (x.state = .scheduled ∧ x.prepared = false ∧ s.time.tooLate x.thaw.toNat = false) →
      Completes (.epochAbandon c) s fun t =>
        Changes [.out, .ports, .parse, .tbl, .time, .tally, .perf, .parish, .results, .holds, .epochs] s t ∧
        t.epoch? e = none ∧
        t.cif.results.getLast? = some (t.mkReply c stOk [] false)) ∧
    (∀ a, s.takes 0x0108 c = true → c.level = 6 → s.parish.role = 1 → s.parish.act = some a → a.epoch.toNat = e →
      a.awaitAck = false → Completes (.epochAbandon c) s fun t =>
        Changes [.out, .ports, .parse, .tbl, .time, .tally, .perf, .parish, .results, .holds, .epochs] s t ∧
        t.parish.act = none ∧ t.parish.actPhase = 3 ∧
        t.cif.results.getLast? = some (t.mkReply c stOk [] false)) ∧
    (s.takes 0x0108 c = true → c.level = 6 → s.parish.role = 1 → s.parish.act = none →
      s.parish.decided.contains (BitVec.ofNat 16 e) = true → Completes (.epochAbandon c) s fun t =>
        Replied s t c stTimePassed [] ∧ Changes [.results] s t))

/-! ### Chapter 10: registers, mailboxes, the command path, events and host packets -/

/-- The register writes and the mailbox accesses complete (R337, R340 to R343, R360, Tables 10-6, 10-7); a write in the ACLK cycle of a
read (`same`) is judged by the pointers at the cycle's start, and sets LEVEL_HIT by the net effect of the two. That the read's row comes
first is the model's choice (log entry 182), and so is a write of the JTAG port's instruction register through the row of a register write
(log entry 200). -/
def Obligations.RegisterRowsComplete : Prop :=
  ∀ (s : State),
    (∀ fn q v, fn < 16 → q < 16 → s.cif.pcieUp = true → Completes (.cmdDoorbell fn q v) s fun t =>
      let r := s.cmdRing fn q
      tget (t.func fn).doorbells q 0 = v ∧
      (r.en = true → r.stopped = false → t.cmdRing fn q =
        { r with producer := v, stopped := decide (2 ^ r.sizeLog2.toNat < (v - r.consumer).toNat) }) ∧
      ((r.en = false ∨ r.stopped = true) → t.cmdRing fn q = r) ∧ Changes [.funcs] s t) ∧
    (∀ fn v, fn < 16 → s.cif.pcieUp = true → Completes (.hostTxDoorbell fn v) s fun t =>
      (t.func fn).hostDoorbell = v ∧
      (t.func fn).hostTx = (if (s.func fn).hostTx.en then { (s.func fn).hostTx with producer := v } else (s.func fn).hostTx) ∧
      Changes [.funcs] s t) ∧
    (∀ fn (v : BitVec 64), fn < 16 → s.cif.pcieUp = true → 12 ≤ v.toNat / 2 % 32 → v.toNat / 2 % 32 ≤ 24 →
      Completes (.adminCmdEnable fn v) s fun t =>
        (t.func fn).adminCmdEn = v.getLsbD 0 ∧ (t.func fn).adminCmdSize.toNat = v.toNat / 2 % 32 ∧
        (t.cmdRing fn 0).en = v.getLsbD 0 ∧ (t.cmdRing fn 0).base = (s.func fn).adminCmdBase ∧
        (t.cmdRing fn 0).producer = 0 ∧ (t.cmdRing fn 0).consumer = 0 ∧ Changes [.funcs] s t) ∧
    (∀ fn q v, fn < 16 → q < 16 → s.cif.pcieUp = false → Completes (.cmdDoorbell fn q v) s (fun t => t = s) ∧
      Completes (.hostTxDoorbell fn v) s (fun t => t = s) ∧ Completes (.adminCmdEnable fn v) s (fun t => t = s)) ∧
    (∀ fn (v : BitVec 64), fn < 16 → s.cif.pcieUp = true → v.toNat % 4096 = 0 →
      Completes (.registerWrite (.bar0 fn) 0x0100 v) s fun t => (t.func fn).adminCmdBase = v ∧ Changes [.funcs] s t) ∧
    (∀ o v, Completes (.registerWrite .bar2 o v) s fun t =>
      (3 ≤ s.aon.stage.toNat → s.pwr.ready = false → o + 8 ≤ 0xFFF00 →
        ∀ i, i < 8 → (tget t.aon.bar2 (o + i) 0).toNat = v.toNat / 2 ^ (8 * i) % 256) ∧
      ((s.aon.stage.toNat < 3 ∨ s.pwr.ready = true) → t = s) ∧ Changes [.aon] s t) ∧
    (∀ o (v : BitVec 64), s.aon.vaux = true → Completes (.registerWrite .jtag o v) s fun t =>
      t.aon.jtagIr = v.setWidth 8 ∧ t.aon.cmdBox = s.aon.cmdBox ∧ Changes [.aon] s t) ∧
    (∀ (v : BitVec 64), s.aon.vaux = true → Completes (.registerWrite .mgmt 0x10 v) s fun t =>
      t.aon.cmdBox.overrun = (s.aon.cmdBox.overrun && !v.getLsbD 3) ∧
      t.aon.rplBox.underrun = (s.aon.rplBox.underrun && !v.getLsbD 10) ∧
      t.aon.evtBox.levelHit = (s.aon.evtBox.levelHit && !v.getLsbD 20) ∧ t.aon.cmdBox.wptr = s.aon.cmdBox.wptr ∧
      Changes [.aon] s t) ∧
    (∀ d same, s.aon.vaux = true → (if same = true then s.aon.cmdBox.startFill else s.aon.cmdBox.fill) < 256 →
      Completes (.cmdFifo ⟨d, same⟩) s fun t =>
        t.aon.cmdBox.wptr = s.aon.cmdBox.wptr + 1 ∧ t.aon.cmdBox.rptr = s.aon.cmdBox.rptr ∧
        tget t.aon.cmdBox.entries (s.aon.cmdBox.wptr.toNat % 256) [] = d ∧
        t.aon.cmdBox.levelHit = (s.aon.cmdBox.levelHit ||
          decide (s.aon.cmdBox.level ≠ 0 ∧ s.aon.cmdBox.level.toNat ≤ s.aon.cmdBox.fill + 1 ∧
            (if same = true then s.aon.cmdBox.startFill else s.aon.cmdBox.fill) < s.aon.cmdBox.level.toNat)) ∧
        Changes [.aon] s t) ∧
    (∀ d same, s.aon.vaux = true → 256 ≤ (if same = true then s.aon.cmdBox.startFill else s.aon.cmdBox.fill) →
      Completes (.cmdFifo ⟨d, same⟩) s fun t =>
      t.aon.cmdBox = { s.aon.cmdBox with overrun := true } ∧ t.aon.discarding = true ∧
      Changes [.aon, .ignoredWrites, .holds, .perf] s t) ∧
    (s.aon.vaux = true → s.aon.rplBox.fill ≠ 0 → Completes .rplFifo s fun t =>
      t.aon.rplBox.levelHit = s.aon.rplBox.levelHit ∧ t.aon.rplBox.wptr = s.aon.rplBox.wptr ∧
      t.aon.rplBox.last = tget s.aon.rplBox.entries (s.aon.rplBox.rptr.toNat % 256) [] ∧
      t.aon.rplBox.rptr = s.aon.rplBox.rptr + 1 ∧ Changes [.aon] s t) ∧
    (s.aon.vaux = true → s.aon.rplBox.fill = 0 → Completes .rplFifo s fun t =>
      t.aon.rplBox = { s.aon.rplBox with
        underrun := true, startW := s.aon.rplBox.wptr, startR := s.aon.rplBox.rptr } ∧ Changes [.aon] s t) ∧
    (s.aon.vaux = true → s.aon.evtBox.fill ≠ 0 → Completes .evtFifo s fun t =>
      t.aon.evtBox.levelHit = s.aon.evtBox.levelHit ∧ t.aon.evtBox.wptr = s.aon.evtBox.wptr ∧
      t.aon.evtBox.last = tget s.aon.evtBox.entries (s.aon.evtBox.rptr.toNat % 256) [] ∧
      t.aon.evtBox.rptr = s.aon.evtBox.rptr + 1 ∧ Changes [.aon] s t) ∧
    (s.aon.vaux = true → s.aon.evtBox.fill = 0 → Completes .evtFifo s fun t =>
      t.aon.evtBox = { s.aon.evtBox with
        underrun := true, startW := s.aon.evtBox.wptr, startR := s.aon.evtBox.rptr } ∧ Changes [.aon] s t) ∧
    (∀ v, s.aon.vaux = true → bit v 0 = true → Completes (.resync v) s fun t =>
      t.aon.discarding = false ∧ t.aon.cmdBox.fill = 0 ∧ Changes [.aon] s t)

/-- The rows of the command path complete (R334, R335, R337, R338, R343, R347, R350, R351): a command is taken into its queue,
handed to its target when its queue's turn has come (in the order that log entry 160 gives the queues), concluded by its result, and answered.
A pattern armed in its channel's command buffer is met as the command is handed over and ends it with ABORTED_BY_RECOVERY (Table 12-1,
R400); that this row reads the buffer is the model's choice (DESIGN CHOICE: log entry 193). -/
def Obligations.CommandPathRowsComplete : Prop :=
  ∀ (s : State),
    (∀ fn q bs, let r := s.cmdRing fn q
      let c := parseCmd (.pcie fn) bs
      fn < 16 → q < 16 → s.pwr.ready = true → s.cif.pcieUp = true → r.en = true → r.stopped = false →
      r.producer ≠ r.consumer → (s.rplRing fn r.replyQ.toNat).blocked = [] → c.paramWords.toNat ≤ 1020 →
      Completes (.commandFetch fn q bs) s fun t =>
        (∃ f, t.cif.flights = s.cif.flights ++ [f] ∧ f.cmd = c ∧ f.ring.toNat = q ∧ f.priv = s.privilege (.pcie fn) ∧
          (s.arrivalFail c = none → f.rejected = false ∧ f.phase = .waiting) ∧
          (∀ st, s.arrivalFail c = some st → f.rejected = true ∧ f.reply = some (s.mkReply c st [] false))) ∧
        (t.cmdRing fn q).consumer = r.consumer + BitVec.ofNat 64 (roundUp (cmdBytes c.paramWords.toNat c.checkCrc) 64) ∧
        t.out = s.out ++ [.consumer fn r.ctrl (t.cmdRing fn q).consumer] ∧ Changes [.out, .funcs, .flights, .perf] s t) ∧
    (s.aon.vaux = true → s.aon.discarding = true → s.aon.cmdBox.fill ≠ 0 → Completes .mailboxCommandTake s fun t =>
      t.aon.cmdBox.rptr = s.aon.cmdBox.rptr + 1 ∧ t.cif.flights = s.cif.flights ∧ Changes [.aon] s t) ∧
    (let m := s.aon.cmdBox
     let h := parseCmd .mgmt (m.take (min m.fill 1)).2
     let n := entriesOf (cmdBytes h.paramWords.toNat h.checkCrc)
     s.aon.vaux = true → s.aon.discarding = false → m.fill ≠ 0 → h.paramWords.toNat ≤ 1020 → n ≤ m.fill →
      Completes .mailboxCommandTake s fun t => Changes [.aon, .flights, .perf] s t ∧
        (∃ f, t.cif.flights = s.cif.flights ++ [f] ∧ f.cmd = parseCmd .mgmt (m.take n).2 ∧ f.priv = s.cif.mgmtPriv.toNat) ∧
        t.aon.cmdBox = (m.take n).1) ∧
    (∀ src q f, s.cif.flights = [f] → inQueue src q f = true → f.phase = .waiting → f.rejected = false →
      s.pwr.ready = true → f.cmd.device = s.parish.device →
      f.cmd.atBeat = false → s.fenceWait f.cmd = false → s.targetStopped f.cmd = false → s.unitFault f.cmd = false →
      s.engineHeld (cmdEngine f.cmd) = false → s.noPattern dCmdBuf (senderChannel src) → Completes (.commandDispatch src q) s fun t =>
        Changes [.stw, .pwr, .flights, .nextTurn] s t ∧ t.cif.nextTurn = (queueTurn src q + 1) % queueTurns ∧
        t.cif.flights = [{ f with phase := .running, late := false }]) ∧
    (∀ src q f, s.cif.flights = [f] → inQueue src q f = true → f.phase = .waiting → f.rejected = false →
      s.pwr.ready = true → f.cmd.device = s.parish.device → f.cmd.atBeat = true → s.fenceWait f.cmd = false →
      s.time.tooLate (s.time.extend f.cmd.low) = false → s.noPattern dCmdBuf (senderChannel src) →
      Completes (.commandDispatch src q) s fun t =>
        Changes [.flights, .nextTurn] s t ∧
        ∃ g, t.cif.flights = [g] ∧ g.cmd = f.cmd ∧ g.phase = .stored (BitVec.ofNat 48 (s.time.extend f.cmd.low))) ∧
    (∀ src q f j, s.cif.flights = [f] → inQueue src q f = true → f.phase = .waiting → f.rejected = false → f.discard = false →
      s.fenceWait f.cmd = false → s.err.injections = [j] → j.det = dCmdBuf → j.inst = senderChannel src → j.due = true → j.mode = 3 →
      Completes (.commandDispatch src q) s fun t =>
        Changes [.free, .out, .tally, .perf, .err, .flights, .nextTurn, .holds] s t ∧ t.err.injections = [] ∧
        (t.det dCmdBuf (senderChannel src)).injected = satAdd 32 (s.det dCmdBuf (senderChannel src)).injected 1 ∧
        ∃ g r, t.cif.flights = [g] ∧ g.cmd = f.cmd ∧ g.phase = .done ∧ g.reply = some r ∧ r.status = stAborted) ∧
    (∀ src q f g, s.cif.flights = [f, g] → f.phase = .waiting → g.phase = .waiting → inQueue src q f = true → inQueue src q g = false →
      f.barrier = false → g.barrier = false → s.fenceWait g.cmd = false →
      s.turnsTo g.cmd.src g.ring.toNat < s.turnsTo src q → Completes (.commandDispatch src q) s fun t => t = s) ∧
    (∀ src q, (∀ f ∈ s.cif.flights, inQueue src q f = true → f.phase ≠ .waiting) →
      Completes (.commandDispatch src q) s fun t => t = s) ∧
    (∀ src q tag f r, s.cif.flights = [f] → isTag src q tag f = true → f.rejected = false → f.phase = .running →
      s.cif.results = [r] → answers r f.cmd = true → f.discard = false → (r.status = 0 → f.cmd.noReply = false) →
      Completes (.commandComplete src q tag) s fun t =>
        Changes [.free, .out, .tally, .perf, .stw, .pwr, .flights, .results] s t ∧ t.cif.results = [] ∧
        t.cif.flights = [{ f with phase := .done, reply := some { r with late := r.late || f.late } }]) ∧
    (∀ src q tag f, s.cif.flights = [f] → isTag src q tag f = true → f.rejected = false →
      ∀ b, f.phase = .stored b → b.toNat ≤ s.time.beat.toNat → s.fenceWait f.cmd = false →
      (s.engine (cmdEngine f.cmd)).causes = [] → s.targetStopped f.cmd = false → s.unitFault f.cmd = false →
      s.engineHeld (cmdEngine f.cmd) = false → Completes (.atBeatBoundary src q tag) s fun t =>
        Changes [.free, .stw, .pwr, .flights] s t ∧
        t.cif.flights = [{ f with phase := .running, late := false }]) ∧
    (∀ q f r k, s.cif.flights = [f] → inQueue .mgmt q f = true → f.phase = .done → f.pending = none → f.reply = some r →
      s.aon.vaux = true → s.aon.rplBox.fill + (entries64 (replyBytes r)).length ≤ 256 →
      (k.same = true → s.aon.rplBox.startFill < 256) → Completes (.replyWrite .mgmt q k) s fun t => t.cif.flights = [] ∧
        t.aon.rplBox = s.aon.rplBox.pushAll k.same (entries64 (replyBytes r)) ∧ Changes [.aon, .flights] s t) ∧
    (∀ fn q f r k, s.cif.flights = [f] → inQueue (.pcie fn) q f = true → f.phase = .done → f.pending = none →
      f.reply = some r → (s.rplRing fn (s.cmdRing fn q).replyQ.toNat).en = true → s.cif.pcieUp = true →
      ((s.rplRing fn (s.cmdRing fn q).replyQ.toNat).producer - (s.rplRing fn (s.cmdRing fn q).replyQ.toNat).consumer).toNat +
        (padBytes (replyBytes r) 64).length ≤ 2 ^ (s.rplRing fn (s.cmdRing fn q).replyQ.toNat).sizeLog2.toNat →
      Completes (.replyWrite (.pcie fn) q k) s fun t => t.cif.flights = [] ∧
        Changes [.out, .funcs, .flights] s t ∧
        Out.ringUnit 0 fn (s.cmdRing fn q).replyQ.toNat [] (padBytes (replyBytes r) 64) ∈ t.out) ∧
    (∀ src q k, s.cif.flights = [] → Completes (.replyWrite src q k) s fun t => t = s)

/-- Events and host packets complete (R356 to R360): a source delivers its oldest held event where it can be taken, a transmit
descriptor becomes a packet for the named queue or is refused, and the oldest host packet is written to its ring. That the held records go
before an outstanding EVENT_OVERFLOW is the model's reading (log entry 34), and so is what a refused descriptor is refused for, and in which
order (`txRefused`, log entry 31). -/
def Obligations.EventAndHostRowsComplete : Prop :=
  ∀ (s : State),
    (∀ n d k, n < 5 → d < 18 → tget s.cif.holds (n * 32 + d) {} = {} → Completes (.eventDelivery n d k) s fun t => t = s) ∧
    (∀ n k r rest h, n < 5 → s.sourceHeld n = false → tget s.cif.holds (n * 32 + 16) {} = h → h.held = r :: rest →
      s.aon.vaux = true → s.aon.evtBox.fill < 256 → (k.same = true → s.aon.evtBox.startFill < 256) →
      Completes (.eventDelivery n 16 k) s fun t =>
        tget t.cif.holds (n * 32 + 16) {} = { h with held := rest } ∧
        t.aon.evtBox = s.aon.evtBox.push (wordsToBytes r.words) k.same ∧ Changes [.aon, .holds, .perf] s t) ∧
    (∀ n d k r rest h, n < 5 → d < 16 → s.sourceHeld n = false → tget s.cif.holds (n * 32 + d) {} = h →
      h.held = r :: rest → s.cif.pcieUp = true →
      let ring := (tget s.cif.dests d {}).ring
      ring.en = true → (ring.producer - ring.consumer).toNat + 64 ≤ 2 ^ ring.sizeLog2.toNat →
      Completes (.eventDelivery n d k) s fun t =>
        Changes [.out, .nextPkt, .arrivals, .tally, .perf, .aon, .funcs, .dests, .holds] s t ∧
        tget t.cif.holds (n * 32 + d) {} = { h with held := rest } ∧
        (tget t.cif.dests d {}).ring.producer = ring.producer + 64 ∧ Out.ringUnit 1 d 0 r.words [] ∈ t.out) ∧
    (∀ fn desc data, fn < 16 → s.cif.pcieUp = true → (s.func fn).hostTx.en = true →
      (s.func fn).hostTx.producer ≠ (s.func fn).hostTx.consumer →
      let len := fld (wd desc 2) 0 14
      let q := fld (wd desc 3) 0 14
      Completes (.hostTxDescriptor fn desc data) s fun t =>
        Changes [.out, .nextPkt, .arrivals, .tally, .perf, .funcs, .holds] s t ∧
        (t.func fn).hostTx.consumer = (s.func fn).hostTx.consumer + 32 ∧
        (s.txRefused fn len q = none → ∃ k, t.arrivals = s.arrivals ++ [k] ∧ k.len = len ∧ k.egress = some (q / 16) ∧
          k.qidx.toNat = q % 16 ∧ k.data = data.take (len - 4) ∧ k.id = s.nextPkt ∧ t.nextPkt = s.nextPkt + 1) ∧
        Out.consumer fn (s.func fn).hostTx.ctrl ((s.func fn).hostTx.consumer + 32) ∈ t.out ∧
        (∀ st, s.txRefused fn len q = some st → Out.txDone fn (s.func fn).hostTx.consumer st ∈ t.out ∧ t.arrivals = s.arrivals)) ∧
    (∀ fn desc data, fn < 16 → (s.cif.pcieUp = false ∨ (s.func fn).hostTx.en = false ∨
      (s.func fn).hostTx.producer = (s.func fn).hostTx.consumer) →
      Completes (.hostTxDescriptor fn desc data) s fun t => t = s) ∧
    (∀ fn k u rest, fn < 16 → tget s.tally.hostPath fn [] = u :: rest → s.cif.pcieUp = true →
      let ring := (s.func fn).hostRx
      ring.en = true → (ring.producer - ring.consumer).toNat + u.bytes.length ≤ 2 ^ ring.sizeLog2.toNat →
      Completes (.hostReceiveWrite fn k) s fun t => Changes [.out, .tally, .funcs] s t ∧ tget t.tally.hostPath fn [] = rest ∧
        Out.ringUnit 3 fn 0 [] u.bytes ∈ t.out ∧
        (t.func fn).hostRx.producer = ring.producer + BitVec.ofNat 64 u.bytes.length) ∧
    (∀ fn k, fn < 16 → tget s.tally.hostPath fn [] = [] → Completes (.hostReceiveWrite fn k) s fun t => t = s)

/-- The rows of VAUX, the resets and the start-up stages complete (R437, R442 to R448): each stage's end, with everything well,
leads to the next stage, and the last one to READY. That a function-level reset keeps the function's event mask, and that that of function 0
resets BAR2, is the model's reading (log entry 33). -/
def Obligations.StartUpRowsComplete : Prop :=
  ∀ (s : State),
    (s.aon.vaux = false → Completes .vauxApplied s fun t =>
      t.aon.vaux = true ∧ t.aon.stage = 1 ∧ t.pwr.ready = false ∧ t.ports = [] ∧ t.aon.slotA.central = s.aon.slotA.central) ∧
    (s.aon.vaux = true → Completes .vauxApplied s fun t => t = s) ∧
    Completes .vauxRemoved s (fun t => t.aon.vaux = false ∧ t.pwr.ready = false ∧ t.ports = [] ∧ t.queues = [] ∧
      t.aon.journal = s.aon.journal ∧ t.out = s.out) ∧
    (∀ m, s.inStage 1 = true → Completes (.coreRailsInRange m) s fun t =>
      t.aon.stage = 2 ∧ t.aon.bootMode = m ∧ Changes [.aon] s t) ∧
    (∀ l m, s.inStage 2 = true → l = List.replicate 17 true → Completes (.stageClocksDone l m) s fun t =>
      Changes [.aon, .pwr] s t ∧
      t.aon.stage = 3 ∧ t.pwr.clkFailed = 0 ∧ t.pwr.onStandby = 0 ∧ t.aon.waitHost = decide (s.aon.bootMode = 2)) ∧
    (∀ l m g, s.inStage 2 = true → g < 17 → l.getD g false = false → m.getD g false = false →
      Completes (.stageClocksDone l m) s fun t => Changes [.aon, .pwr] s t ∧ t.aon.stage = 9 ∧ t.aon.bootFault = 1) ∧
    (s.inStage 3 = true → s.aon.waitHost = false →
      let k := imageCause 0 s.aon.level (s.slotCentral s.aon.candidate)
      Completes .stageCentralDone s fun t => Changes [.stw, .aon] s t ∧
        (k = 0 → t.aon.stage = 4 ∧ t.aon.running = s.aon.candidate ∧
          (t.engine 0).state = .running ∧ (t.engine 0).image = imageOf (s.slotCentral s.aon.candidate)) ∧
        (k ≠ 0 → s.aon.tried = [] → imageCause 0 s.aon.level (s.slotCentral (!s.aon.candidate)) ≠ 0 →
          t.stw = s.stw ∧ (s.aon.bootMode = 0 → t.aon.stage = 9 ∧ t.aon.bootFault = 2) ∧
          (s.aon.bootMode ≠ 0 → t.aon.stage = 3 ∧ t.aon.waitHost = true))) ∧
    (s.inStage 4 = true → s.aon.hostBoot = false →
      let k := imageCause 1 s.aon.level (s.slotRegion s.aon.running)
      Completes .stageRegionsDone s fun t => Changes [.stw, .aon] s t ∧
        (k = 0 → t.aon.stage = 5 ∧ ∀ e, 1 ≤ e → e ≤ 4 →
          (t.engine e).state = .running ∧ (t.engine e).image = imageOf (s.slotRegion s.aon.running)) ∧
        (k ≠ 0 → t.stw = s.stw ∧ (t.aon.stage = 3 ∨ t.aon.stage = 9))) ∧
    (s.inStage 4 = true → s.aon.hostBoot = true → imageCause 1 s.aon.level s.aon.hostRegion ≠ 0 → Completes .stageRegionsDone s fun t =>
      t.aon.stage = 3 ∧ t.aon.waitHost = true ∧ t.aon.bootState = 3 ∧ t.aon.bootRegion = true ∧ Changes [.aon] s t) ∧
    (s.inStage 5 = true → Completes (.stageGlacierDone [true, true, true, true]) s fun t =>
      t.aon.stage = 6 ∧ Changes [.aon] s t) ∧
    (s.inStage 6 = true → Completes (.stageD2dDone (List.replicate 64 true)) s fun t =>
      t.aon.stage = 7 ∧ t.err.linkDown = none ∧ t.healthyChannels 0 = 32 ∧ t.healthyChannels 1 = 32 ∧
      Changes [.aon, .err, .holds] s t) ∧
    (s.inStage 7 = true → Completes (.stageLanesDone (List.replicate 8 true)) s fun t =>
      t.aon.stage = 8 ∧ t.pwr.ready = true ∧ t.aon.bar2 = [] ∧ t.ports = s.ports) ∧
    (∀ l m, s.aon.stage = 8 → Completes (.stageClocksDone l m) s (fun t => t = s) ∧ Completes .stageCentralDone s (fun t => t = s) ∧
      Completes .stageRegionsDone s (fun t => t = s) ∧ Completes (.stageGlacierDone l) s (fun t => t = s) ∧
      Completes (.stageD2dDone l) s (fun t => t = s) ∧ Completes (.stageLanesDone l) s (fun t => t = s)) ∧
    (s.started = true → Completes .resetN s fun t => t.aon.stage = 2 ∧ t.aon.lastReset = 1 ∧ 1#3 ∈ t.aon.hold ∧
      t.pwr.ready = false ∧ t.ports = [] ∧ t.aon.slotA = s.aon.slotA ∧ t.aon.powerOn = s.aon.powerOn) ∧
    (s.started = false → Completes .resetN s fun t => t = s) ∧
    Completes .resetHoldEnd s (fun t => t.aon.hold = [] ∧ t.aon.stage = s.aon.stage ∧ Changes [.aon] s t) ∧
    (s.pwr.restart = true → s.restartReply = false → Completes .imageRestartTimer s fun t => t.aon.stage = 2 ∧ t.aon.lastReset = 5 ∧ t.pwr.ready = false) ∧
    (s.pwr.restart = false ∨ s.restartReply = true → Completes .imageRestartTimer s fun t => t = s) ∧
    Completes .perstN s (fun t =>
      Changes [.out, .tally, .flights, .funcs, .dests, .pcieUp, .aon] s t ∧
      t.cif.pcieUp = false ∧ (∀ f, f < 16 → t.func f = {}) ∧ t.ports = s.ports ∧
      t.time = s.time ∧ t.aon = { s.aon with bar2 := [], bootState := 0, bootCause := 0, bootRegion := false }) ∧
    (∀ f, f < 16 → Completes (.functionLevelReset f) s fun t =>
      Changes [.out, .tally, .flights, .funcs, .dests, .aon] s t ∧ t.func f = {} ∧ (f ≠ 0 → t.aon = s.aon) ∧
      (f = 0 → t.aon = { s.aon with bar2 := [], bootState := 0, bootCause := 0, bootRegion := false }) ∧ (∀ g, g ≠ f → t.func g = s.func g) ∧
      (tget t.cif.dests f {}).ring = {} ∧ (tget t.cif.dests f {}).mask = (tget s.cif.dests f {}).mask ∧
      (∀ x ∈ t.cif.flights, x.cmd.src = .pcie f → x.phase ≠ .done ∧ x.discard = true) ∧ t.cif.pcieUp = s.cif.pcieUp) ∧
    (2 ≤ s.aon.stage.toNat → Completes .pcieLinkUp s fun t => t.cif.pcieUp = true ∧ Changes [.pcieUp] s t) ∧
    (∀ v, bit v 0 = true → s.cif.pcieUp = true → s.aon.hold = [] → (s.aon.stage = 9 ∨ (s.aon.stage = 3 ∧ s.aon.waitHost = true)) →
      Completes (.go v) s fun t => Changes [.tally, .perf, .stw, .aon, .holds] s t ∧
        (imageCause 0 s.aon.level s.aon.hostCentral = 0 → imageCause 1 s.aon.level s.aon.hostRegion = 0 →
          t.aon.stage = 4 ∧ t.aon.hostBoot = true ∧ t.aon.bootState = 2 ∧ (t.engine 0).image = imageOf s.aon.hostCentral) ∧
        (imageCause 0 s.aon.level s.aon.hostCentral ≠ 0 ∨ imageCause 1 s.aon.level s.aon.hostRegion ≠ 0 →
          t.aon.stage = 3 ∧ t.aon.waitHost = true ∧ t.aon.bootState = 3)) ∧
    (∀ v, bit v 0 = false → Completes (.go v) s fun t => t = s)

/-! ### The machine as a whole -/

/-- A step with a command at the front of the queue is that command's effect on the state with the rest of the queue; the queue
is the model's own (log entry 1). -/
def Obligations.StepRunsTheFrontCommand : Prop :=
  ∀ (s : State) (i : Instr) (rest : List Instr), s.pending = i :: rest → step s = exec i { s with pending := rest }

/-- A step on an empty queue is the model's own choice (log entry 2): while TBCLK does not run nothing changes; afterwards one cycle
of the time base passes, where that does not reach the next beat boundary, and the engines that run issue a microword each. What a
command has configured stays as it is. -/
def Obligations.EmptyQueueAdvancesTheClock : Prop :=
  ∀ (s : State), s.pending = [] →
    ∃ t, step s = .next t ∧
      Changes [.free, .out, .tbl, .time, .tally, .perf, .stw, .err, .pwr, .flights, .results, .funcs, .holds] s t ∧
      (s.timeRuns = false → t = s) ∧ t.time.beat = s.time.beat ∧ (t.time = s.time ∨ t.time = s.time.advance) ∧
      (s.time.ns < s.time.boundary (s.time.beat.toNat + 1) → t.time.ns < s.time.boundary (s.time.beat.toNat + 1))

/-- The state after reset holds the values that the spec gives (R329, R359, R407, R427, Tables 7-4, 8-5, 8-6, 13-7, 14-10, 14-11):
no port, no flight, every virtual function at privilege 1 with an empty port map, the management bus at privilege 3, every host
code to function 0, role NONE, 1,000 beats a second. -/
def Obligations.ResetHoldsTheStatedValues : Prop :=
  let s := State.reset
  s.pending = [] ∧ s.ports = [] ∧ s.queues = [] ∧ s.cif.flights = [] ∧ s.cif.epochs = [] ∧ s.pwr.ready = false ∧
  (∀ f, 1 ≤ f → f < 16 → s.privilege (.pcie f) = 1 ∧ s.portMap (.pcie f) = 0) ∧ s.privilege .mgmt = 3 ∧ s.portMap .mgmt = 0 ∧
  (∀ k, tget s.cif.codeMap k 0 = 0) ∧ s.parish.role = 0 ∧ s.parish.voteBeats = 4 ∧ s.parish.mgrTimeout = 3 ∧
  s.time.beats = 1000 ∧ s.time.state = TimeState.unset ∧ s.time.source = 0 ∧ s.pwr.warnC = 115 ∧ s.pwr.hystC = 5 ∧
  s.pwr.avsEn = true ∧ s.pwr.ceiling = 100 ∧ s.pwr.margin = 10

/-- A well-formed command always takes effect: it answers a next state from every state, and no fault and no refusal (an event
names an object that the device numbers, and an injection period one of its detector). -/
def Obligations.WellFormedCommandsAnswerAState : Prop :=
  ∀ (i : Instr) (s : State), i.wf = true → (∀ d n, i = .injectionPeriod d n → n < detCount d) → ∃ t, exec i s = .next t

/-- RX_FRAME_START, TX_SELECT, TX_FRAME_END, LINK_FAULT, GATE_TAKEOVER and ALARM_REPEAT of a port, PATCH_LOAD,
ALLOCATOR_COUNT_RECOMPUTED and LEARN_INSERT of a region, and FUNCTION_LEVEL_RESET of a function outside the device's numbers (Table 0-4) stop
by name; this is the model's own choice (log entry 3), since no such event can occur. -/
def Obligations.EventsOfUnknownObjectsStop : Prop :=
  ∀ (s : State) (n : Nat),
    (1024 ≤ n → exec (.rxFrameStart n) s = .fault .noSuchObject ∧ exec (.txSelect n) s = .fault .noSuchObject ∧
      exec (.txFrameEnd n) s = .fault .noSuchObject ∧ exec (.linkFault n) s = .fault .noSuchObject ∧
      exec (.gateTakeover n) s = .fault .noSuchObject ∧ exec (.alarmRepeat n) s = .fault .noSuchObject) ∧
    (4 ≤ n → exec (.patchLoad n) s = .fault .noSuchObject ∧ exec (.allocatorCountRecomputed n) s = .fault .noSuchObject ∧
      exec (.learnInsert n) s = .fault .noSuchObject) ∧
    (16 ≤ n → exec (.functionLevelReset n) s = .fault .noSuchObject)

/-- Every well-formed packet is read back from its bytes (R331, R332): each field at every value, the parameter words, and the
trailer, whatever padding follows. -/
def Obligations.PacketRoundTrip : Prop :=
  ∀ (c : Cmd) (pad : List Byte), c.words.length = c.paramWords.toNat → c.words.length ≤ 1020 →
    let d := parseCmd c.src (encodeCmd c ++ pad)
    { d with crcOk := c.crcOk } = c ∧ (c.checkCrc = true → d.crcOk = true) ∧
      (encodeCmd c).length = cmdBytes c.paramWords.toNat c.checkCrc

/-- Every step keeps the operating point in its legal range (R438, Table 14-11): the driven code and the ceiling do not pass 100,
and the floor does not pass the ceiling. -/
def Obligations.StepKeepsTheOperatingPoint : Prop := ∀ s t : State, s.VidInv → step s = .next t → t.VidInv

/-- Every step keeps the beat rate legal (R263): 10 to 10,000 beats a second and a divisor of 10⁹, in force and pending. -/
def Obligations.StepKeepsTheBeatRate : Prop := ∀ s t : State, s.BeatInv → step s = .next t → t.BeatInv

/-- Both invariants hold after reset. -/
def Obligations.InvariantsHoldAtReset : Prop := State.reset.VidInv ∧ State.reset.BeatInv

/-- Before READY (R330) every packet of the management bus but IDENTIFY and JOURNAL_READ is answered BUSY with no effect, and the
packets of the other channels do nothing; `channelClear` lets a BARRIER take its turn. -/
def Obligations.BeforeReadyOnlyTwoOpcodesRun : Prop :=
  ∀ (i : Instr) (op : Nat) (c : Cmd) (s : State), rowPacket i = some (op, c) → s.pwr.ready = false → s.channelClear c = true →
    s.turn c = true →
    (c.src ≠ .mgmt → exec i s = .next s) ∧
    (c.src = .mgmt → c.opcode ≠ 0x0101 → c.opcode ≠ 0x0D01 → exec i s = .next (s.answer c { status := stBusy })) ∧
    (c.src = .mgmt → c.opcode = 0x0101 → i = .identify c → s.firstFail 0x0101 c = none → s.targetStopped c = false →
      Completes i s fun t => Changes [.results] s t ∧ ∃ ws, Replied s t c stOk ws)

/-- The first failing check of R335 gives the status, and the packet has no effect: trailer, VERSION and OPCODE, length,
privilege, then target, flags and reserved bits. A command for another device is NOT_FOUND where the device neither manages nor relays; a
manager or relay forwards it (R333). A command that still waits for its fence or its channel's turn is not judged yet. -/
def Obligations.FirstFailingCheckDecides : Prop :=
  ∀ (i : Instr) (op : Nat) (c : Cmd) (s : State) (sp : OpSpec), rowPacket i = some (op, c) → c.opcode.toNat = op →
    opSpec op = some sp → s.pwr.ready = true → s.channelClear c = true → s.turn c = true → s.accepted c = false →
    let fails (st : Nat) := exec i s = .next (s.answer c { status := st })
    let badCrc : Prop := ((∀ f, c.src ≠ .pcie f) ∧ c.checkCrc = false) ∨ (c.checkCrc = true ∧ c.crcOk = false)
    let badLen : Prop := c.words.length ≠ c.paramWords.toNat ∨ 1020 < c.words.length ∨
      sp.lens.ok c.words c.paramWords.toNat = false
    (badCrc → fails stBadCrc) ∧
    (¬ badCrc → c.version ≠ 1 → fails stBadOpcode) ∧
    (¬ badCrc → c.version = 1 → badLen → fails stBadLength) ∧
    (¬ badCrc → c.version = 1 → ¬ badLen → s.mayRun sp c.src c.words = false → fails stNoPrivilege) ∧
    (¬ badCrc → c.version = 1 → ¬ badLen → s.mayRun sp c.src c.words = true → c.device ≠ s.parish.device →
      s.parish.role ≠ 1 → s.parish.role ≠ 3 → fails stNotFound) ∧
    (¬ badCrc → c.version = 1 → ¬ badLen → s.mayRun sp c.src c.words = true → c.device = s.parish.device →
      (sp.target.ok c.level.toNat c.unit.toNat c.words = false ∨ c.flagsRsv ≠ 0 ∨ usedOk sp.used c.words = false) →
      fails stBadParam)

/-- A status other than OK means that the command had no effect (R336), but for the rows that say otherwise: the checks of an
image (Table 11-5, R452), TBL_NEXT on a cursor that has overflowed (R172), and ACTIVATE in a parish, which has its own result. -/
def Obligations.FailedCommandsHaveNoEffect : Prop :=
  ∀ (i : Instr) (op : Nat) (c : Cmd) (s t : State) (r : Reply), rowPacket i = some (op, c) →
    i ≠ .microcodeLoadEnd c → i ≠ .microcodeLoadFromSlot c → i ≠ .imageWriteFinish c → i ≠ .tblNext c → i ≠ .parishActivate c →
    exec i s = .next t → t.cif.results = s.cif.results ++ [r] → r.status ≠ 0 → Changes [.results] s t

/-- A command for a unit of a stopped die, a region steward at level 5 among them (log entry 114), that passes the checks of R335 is answered
BUSY and has no effect (R35). -/
def Obligations.StoppedDieAnswersBusy : Prop :=
  ∀ (i : Instr) (op : Nat) (c : Cmd) (s : State) (d : Nat), rowPacket i = some (op, c) → s.pwr.ready = true →
    s.channelClear c = true → s.turn c = true → s.firstFail op c = none → d < 2 → s.die d ≠ .running →
    ((c.level = 2 ∧ c.unit.toNat / 2 = d) ∨ (c.level = 3 ∧ c.unit.toNat / 8 = d) ∨ (c.level = 4 ∧ c.unit.toNat / 64 = d) ∨
      (c.level = 5 ∧ c.unit ≠ 0 ∧ (c.unit.toNat - 1) / 2 = d)) →
    exec i s = .next (s.answer c { status := stBusy })

/-- The reads that clear nothing change nothing but the results, and the free values that some of them take. -/
def Obligations.ReadsChangeNothing : Prop :=
  ∀ (c : Cmd) (s t : State) (i : Instr),
    i ∈ [Instr.identify c, .epochStatus c, .laneFomRead c, .portStatus c, .parseRead c, .tblSearch c, .tblObjStatus c,
      .tblStatus c, .bufRegionStatus c, .bufGlacierStatus c, .gateListRead c, .gateStatus c, .schedQueueStatus c,
      .timeStatus c, .tallyPortRead c, .rateRead c, .errStatus c, .errLogRead c, .stewardStatus c, .stewardTraceRead c,
      .parishStatus c, .parishMemberRead c, .powerStatus c, .clockStatus c, .journalRead c, .imageStatus c, .nop c] →
    exec i s = .next t → Changes [.results, .free] s t

/-- A command that names a queue of a port that is not configured completes with NOT_FOUND and has no effect (R17). -/
def Obligations.QueuesOfUnconfiguredPortsAreNotFound : Prop :=
  ∀ (c : Cmd) (s : State) (op : Nat) (i : Instr), s.hasPort (fld (wd c.words 0) 0 14 / 16) = false →
    (op, i) ∈ [(0x0503, Instr.bufQueueConfig c), (0x0507, .queueStatus c), (0x0602, .schedQueueConfig c),
      (0x060A, .schedQueueStatus c)] → s.takes op c = true →
    Completes i s fun t => Replied s t c stNotFound [] ∧ Changes [.results] s t

/-- HOST_RING_CONFIG acts on the host rings of the function that sends it, and from the management bus or in-band it completes
with BAD_PARAM and no effect (R466). -/
def Obligations.HostRingsBelongToTheSender : Prop :=
  ∀ (c : Cmd) (s : State), s.takes 0x010B c = true →
    (∀ fn, c.src = .pcie fn → Completes (.hostRingConfig c) s fun t => Changes [.results, .funcs] s t ∧
      (∀ g, g ≠ fn → t.func g = s.func g) ∧
      { t.func fn with hostRx := (s.func fn).hostRx, hostTx := (s.func fn).hostTx, hostDoorbell := (s.func fn).hostDoorbell } = s.func fn) ∧
    ((c.src = .mgmt ∨ ∃ d, c.src = .inband d) →
      Completes (.hostRingConfig c) s fun t => Replied s t c stBadParam [] ∧ Changes [.results] s t)

/-- An in-band command has privilege 3 only when its frame carries device 0 and the highest MANAGER_GEN that the device holds,
and privilege 0 otherwise (R419). -/
def Obligations.InbandPrivilegeNeedsTheManager : Prop :=
  ∀ (h : Riwen) (bs : List Byte) (s : State), h.port < 1024 → s.hasRole = true → (s.port h.port).riwenEn = true →
    s.riwenOk h = true → h.all = false →
    let u := s.seeGen h.managerGen
    h.dstDevice = u.parish.device → u.parish.stored = [] → u.cif.flights = [] →
    Completes (.riwenCommand h bs) s fun t => ∃ f, t.cif.flights = [f] ∧
      f.priv = (if h.srcDevice = 0 ∧ h.managerGen = u.parish.managerGen then 3 else 0) ∧
      u.parish.managerGen.toNat = max s.parish.managerGen.toNat h.managerGen.toNat

/-- A port has RIWEN_EN set only with a MAX_FRAME of 4,134 or more: RELAY_CONFIG and PORT_CONFIG refuse what would break this, and
keep it (R412). -/
def Obligations.RiwenPortsTakeTheLargestFrame : Prop :=
  ∀ (c : Cmd) (s : State) (v : Port),
    (s.takes 0x0B03 c = true → s.levelHere c = true → s.port? (fld (wd c.words 0) 0 10) = some v → bit (wd c.words 1) 0 = true →
      v.maxFrame.toNat < 4134 →
      Completes (.relayConfig c) s fun t => Replied s t c stBadParam [] ∧ Changes [.results] s t) ∧
    (let p := portOf c
     let w1 := wd c.words 1
     let w := fld w1 0 4
     let maxF := fld (wd c.words 2) 0 14
     s.takes 0x0210 c = true → (w = 1 ∨ w = 2 ∨ w = 4 ∨ w = 8) → fld w1 6 2 ≠ 3 → 1 ≤ fld w1 8 7 → fld w1 8 7 ≤ 64 → 64 ≤ maxF →
      p % w = 0 → ((s.lane p).anEnable = false → comboOk w (s.lane p).forcedRate.toNat = true) → s.overlaps p w = false →
      s.port? p = some v → v.riwenEn = true → maxF < 4134 →
      Completes (.portConfig c) s fun t => Replied s t c stBusy [] ∧ Changes [.results] s t) ∧
    ((∀ p u, s.port? p = some u → u.riwenEn = true → 4134 ≤ u.maxFrame.toNat) →
      ∀ t, exec (.relayConfig c) s = .next t ∨ exec (.portConfig c) s = .next t →
        ∀ p u, t.port? p = some u → u.riwenEn = true → 4134 ≤ u.maxFrame.toNat)

/-- A port of width w starts on a lane divisible by w, so that it spans no two port blocks; a PORT_CONFIG that places it elsewhere
completes with BAD_PARAM and has no effect (R16). -/
def Obligations.PortsStartOnALaneOfTheirWidth : Prop :=
  ∀ (c : Cmd) (s : State),
    let p := portOf c
    let w := fld (wd c.words 1) 0 4
    (s.takes 0x0210 c = true → (w = 1 ∨ w = 2 ∨ w = 4 ∨ w = 8) → p % w ≠ 0 →
      Completes (.portConfig c) s fun t => Replied s t c stBadParam [] ∧ Changes [.results] s t) ∧
    (∀ t, exec (.portConfig c) s = .next t → ∀ q v, t.port? q = some v → (s.port? q).map (fun u => u.width) ≠ some v.width →
      q % v.width.toNat = 0 ∧ q / 8 = (q + v.width.toNat - 1) / 8)

/-- No command changes the queue of the commands that wait: a step takes one command from its front and nothing else (the
queue is the model's own, log entry 1). -/
def Obligations.CommandsLeaveTheQueue : Prop :=
  (∀ (i : Instr) (s t : State), exec i s = .next t → t.pending = s.pending) ∧
  ∀ (s t : State), step s = .next t → t.pending = s.pending.tail

end
end

