-- ==== Sys2Proof/Laws/Tables.lean ====
section
/-!
SUPPORT. Tables of numbered objects: what is read after a write, and that every operation keeps the canonical form.
-/

namespace Sys2Proof.Machine

variable {α : Type}

/-! ### Reading after writing -/

theorem tget?_tins (t : Tab α) (k j : Nat) (v : α) : tget? (tins t k v) j = if j = k then some v else tget? t j := by
  induction t with
  | nil => simp [tins, tget?, eq_comm]
  | cons e t ih =>
    obtain ⟨i, w⟩ := e
    simp only [tins]
    split
    · subst i; by_cases h : j = k
      · simp [tget?, h]
      · simp [tget?, h, Ne.symm h]
    · split
      · by_cases h : j = k
        · simp [tget?, h]
        · simp [tget?, h, Ne.symm h]
      · by_cases h : i = j
        · subst i; simp [tget?, *]
        · simp [tget?, h, ih]

theorem tget?_tdel (t : Tab α) (k j : Nat) : tget? (tdel t k) j = if j = k then none else tget? t j := by
  induction t with
  | nil => simp [tdel, tget?]
  | cons e t ih =>
    obtain ⟨i, w⟩ := e
    simp only [tdel]
    by_cases hj : j = k <;> by_cases hi : i = k <;> by_cases h : i = j <;> simp_all [tget?]

@[simp] theorem tget?_tins_self (t : Tab α) (k : Nat) (v : α) : tget? (tins t k v) k = some v := by simp [tget?_tins]

@[simp] theorem tget?_tdel_self (t : Tab α) (k : Nat) : tget? (tdel t k) k = none := by simp [tget?_tdel]

@[simp] theorem tget_tins_self (t : Tab α) (k : Nat) (v d : α) : tget (tins t k v) k d = v := by simp [tget]

theorem tget_tins (t : Tab α) (k j : Nat) (v d : α) : tget (tins t k v) j d = if j = k then v else tget t j d := by
  simp only [tget, tget?_tins]; split <;> rfl

theorem tget?_tset [DecidableEq α] (t : Tab α) (k j : Nat) (d v : α) (h : j ≠ k) :
    tget? (tset t k d v) j = tget? t j := by
  unfold tset; split <;> simp [tget?_tins, tget?_tdel, h]

@[simp] theorem tget_tset_self [DecidableEq α] (t : Tab α) (k : Nat) (d v : α) : tget (tset t k d v) k d = v := by
  unfold tset; split <;> simp_all [tget]

theorem tget_tset [DecidableEq α] (t : Tab α) (k j : Nat) (d v : α) :
    tget (tset t k d v) j d = if j = k then v else tget t j d := by
  by_cases h : j = k
  · subst j; simp
  · simp [tget, tget?_tset t k j d v h, h]

theorem tget?_tmod (t : Tab α) (k j : Nat) (f : α → α) :
    tget? (tmod t k f) j = if j = k then (tget? t k).map f else tget? t j := by
  unfold tmod
  split <;> rename_i h
  · simp only [tget?_tins, h, Option.map]
  · split
    · subst j; simp [h]
    · rfl

/-! ### The canonical form -/

/-- Every number of the table is above `m`. -/
def Tab.above (m : Nat) (t : Tab α) : Prop := ∀ e ∈ t, m < e.1

theorem Tab.wf_cons (e : Nat × α) (t : Tab α) : Tab.wf (e :: t) = true ↔ Tab.above e.1 t ∧ Tab.wf t = true := by
  induction t generalizing e with
  | nil => simp [Tab.wf, Tab.above]
  | cons f t ih =>
    simp only [Tab.wf, Bool.and_eq_true, decide_eq_true_eq, ih f]
    constructor
    · rintro ⟨h, ha, hw⟩
      refine ⟨fun g hg => ?_, ha, hw⟩
      rcases List.mem_cons.mp hg with rfl | hg
      · exact h
      · exact Nat.lt_trans h (ha g hg)
    · rintro ⟨h, ha, hw⟩
      exact ⟨h f (by simp), ha, hw⟩

theorem Tab.above_tins (m : Nat) (t : Tab α) (k : Nat) (v : α) (hk : m < k) (h : Tab.above m t) :
    Tab.above m (tins t k v) := by
  induction t with
  | nil => simpa [tins, Tab.above] using hk
  | cons e t ih =>
    obtain ⟨i, w⟩ := e
    simp only [Tab.above, List.forall_mem_cons] at h
    simp only [tins]
    split
    · simp only [Tab.above, List.forall_mem_cons]; exact ⟨hk, h.2⟩
    · split
      · simp only [Tab.above, List.forall_mem_cons]; exact ⟨hk, h.1, h.2⟩
      · simp only [Tab.above, List.forall_mem_cons]; exact ⟨h.1, ih h.2⟩

theorem tins_wf (t : Tab α) (k : Nat) (v : α) (h : Tab.wf t = true) : Tab.wf (tins t k v) = true := by
  induction t with
  | nil => rfl
  | cons e t ih =>
    obtain ⟨i, w⟩ := e
    obtain ⟨ha, hw⟩ := (Tab.wf_cons _ _).mp h
    simp only [tins]
    split <;> rename_i h1
    · subst i; exact (Tab.wf_cons _ _).mpr ⟨ha, hw⟩
    · split <;> rename_i h2
      · refine (Tab.wf_cons _ _).mpr ⟨fun g hg => ?_, h⟩
        rcases List.mem_cons.mp hg with rfl | hg
        · exact h2
        · exact Nat.lt_trans h2 (ha g hg)
      · exact (Tab.wf_cons _ _).mpr ⟨Tab.above_tins i t k v (by omega) ha, ih hw⟩

theorem Tab.above_tdel (m : Nat) (t : Tab α) (k : Nat) (h : Tab.above m t) : Tab.above m (tdel t k) := by
  induction t with
  | nil => exact h
  | cons e t ih =>
    obtain ⟨i, w⟩ := e
    simp only [Tab.above, List.forall_mem_cons] at h
    simp only [tdel]
    split
    · exact ih h.2
    · simp only [Tab.above, List.forall_mem_cons]; exact ⟨h.1, ih h.2⟩

theorem tdel_wf (t : Tab α) (k : Nat) (h : Tab.wf t = true) : Tab.wf (tdel t k) = true := by
  induction t with
  | nil => rfl
  | cons e t ih =>
    obtain ⟨i, w⟩ := e
    obtain ⟨ha, hw⟩ := (Tab.wf_cons _ _).mp h
    simp only [tdel]
    split
    · exact ih hw
    · exact (Tab.wf_cons _ _).mpr ⟨Tab.above_tdel i t k ha, ih hw⟩

theorem tset_wf [DecidableEq α] (t : Tab α) (k : Nat) (d v : α) (h : Tab.wf t = true) :
    Tab.wf (tset t k d v) = true := by
  unfold tset; split
  · exact tdel_wf t k h
  · exact tins_wf t k v h

theorem tmod_wf (t : Tab α) (k : Nat) (f : α → α) (h : Tab.wf t = true) : Tab.wf (tmod t k f) = true := by
  unfold tmod; split
  · exact tins_wf t k _ h
  · exact h

end Sys2Proof.Machine
end

