-- ==== Sys2Proof/Laws/State.lean ====
section
/-!
SUPPORT. Each field of the state after each of the named updates.
-/

namespace Sys2Proof.Machine

variable (s : State)

/-! ### `setPort` -/

@[simp] theorem setPort_pending (p : Nat) (v : Port) : (s.setPort p v).pending = s.pending := rfl
@[simp] theorem setPort_free (p : Nat) (v : Port) : (s.setPort p v).free = s.free := rfl
@[simp] theorem setPort_out (p : Nat) (v : Port) : (s.setPort p v).out = s.out := rfl
@[simp] theorem setPort_nextPkt (p : Nat) (v : Port) : (s.setPort p v).nextPkt = s.nextPkt := rfl
@[simp] theorem setPort_lanes (p : Nat) (v : Port) : (s.setPort p v).lanes = s.lanes := rfl
@[simp] theorem setPort_ports (p : Nat) (v : Port) : (s.setPort p v).ports = tins s.ports p v := rfl
@[simp] theorem setPort_queues (p : Nat) (v : Port) : (s.setPort p v).queues = s.queues := rfl
@[simp] theorem setPort_parseQ (p : Nat) (v : Port) : (s.setPort p v).parseQ = s.parseQ := rfl
@[simp] theorem setPort_riwenQ (p : Nat) (v : Port) : (s.setPort p v).riwenQ = s.riwenQ := rfl
@[simp] theorem setPort_arrivals (p : Nat) (v : Port) : (s.setPort p v).arrivals = s.arrivals := rfl
@[simp] theorem setPort_parse (p : Nat) (v : Port) : (s.setPort p v).parse = s.parse := rfl
@[simp] theorem setPort_tbl (p : Nat) (v : Port) : (s.setPort p v).tbl = s.tbl := rfl
@[simp] theorem setPort_regions (p : Nat) (v : Port) : (s.setPort p v).regions = s.regions := rfl
@[simp] theorem setPort_glaciers (p : Nat) (v : Port) : (s.setPort p v).glaciers = s.glaciers := rfl
@[simp] theorem setPort_quotas (p : Nat) (v : Port) : (s.setPort p v).quotas = s.quotas := rfl
@[simp] theorem setPort_meters (p : Nat) (v : Port) : (s.setPort p v).meters = s.meters := rfl
@[simp] theorem setPort_time (p : Nat) (v : Port) : (s.setPort p v).time = s.time := rfl
@[simp] theorem setPort_tally (p : Nat) (v : Port) : (s.setPort p v).tally = s.tally := rfl
@[simp] theorem setPort_cif (p : Nat) (v : Port) : (s.setPort p v).cif = s.cif := rfl
@[simp] theorem setPort_stw (p : Nat) (v : Port) : (s.setPort p v).stw = s.stw := rfl
@[simp] theorem setPort_err (p : Nat) (v : Port) : (s.setPort p v).err = s.err := rfl
@[simp] theorem setPort_parish (p : Nat) (v : Port) : (s.setPort p v).parish = s.parish := rfl
@[simp] theorem setPort_aon (p : Nat) (v : Port) : (s.setPort p v).aon = s.aon := rfl
@[simp] theorem setPort_pwr (p : Nat) (v : Port) : (s.setPort p v).pwr = s.pwr := rfl

/-! ### `modPort` -/

@[simp] theorem modPort_pending (p : Nat) (f : Port → Port) : (s.modPort p f).pending = s.pending := rfl
@[simp] theorem modPort_free (p : Nat) (f : Port → Port) : (s.modPort p f).free = s.free := rfl
@[simp] theorem modPort_out (p : Nat) (f : Port → Port) : (s.modPort p f).out = s.out := rfl
@[simp] theorem modPort_nextPkt (p : Nat) (f : Port → Port) : (s.modPort p f).nextPkt = s.nextPkt := rfl
@[simp] theorem modPort_lanes (p : Nat) (f : Port → Port) : (s.modPort p f).lanes = s.lanes := rfl
@[simp] theorem modPort_ports (p : Nat) (f : Port → Port) : (s.modPort p f).ports = tmod s.ports p f := rfl
@[simp] theorem modPort_queues (p : Nat) (f : Port → Port) : (s.modPort p f).queues = s.queues := rfl
@[simp] theorem modPort_parseQ (p : Nat) (f : Port → Port) : (s.modPort p f).parseQ = s.parseQ := rfl
@[simp] theorem modPort_riwenQ (p : Nat) (f : Port → Port) : (s.modPort p f).riwenQ = s.riwenQ := rfl
@[simp] theorem modPort_arrivals (p : Nat) (f : Port → Port) : (s.modPort p f).arrivals = s.arrivals := rfl
@[simp] theorem modPort_parse (p : Nat) (f : Port → Port) : (s.modPort p f).parse = s.parse := rfl
@[simp] theorem modPort_tbl (p : Nat) (f : Port → Port) : (s.modPort p f).tbl = s.tbl := rfl
@[simp] theorem modPort_regions (p : Nat) (f : Port → Port) : (s.modPort p f).regions = s.regions := rfl
@[simp] theorem modPort_glaciers (p : Nat) (f : Port → Port) : (s.modPort p f).glaciers = s.glaciers := rfl
@[simp] theorem modPort_quotas (p : Nat) (f : Port → Port) : (s.modPort p f).quotas = s.quotas := rfl
@[simp] theorem modPort_meters (p : Nat) (f : Port → Port) : (s.modPort p f).meters = s.meters := rfl
@[simp] theorem modPort_time (p : Nat) (f : Port → Port) : (s.modPort p f).time = s.time := rfl
@[simp] theorem modPort_tally (p : Nat) (f : Port → Port) : (s.modPort p f).tally = s.tally := rfl
@[simp] theorem modPort_cif (p : Nat) (f : Port → Port) : (s.modPort p f).cif = s.cif := rfl
@[simp] theorem modPort_stw (p : Nat) (f : Port → Port) : (s.modPort p f).stw = s.stw := rfl
@[simp] theorem modPort_err (p : Nat) (f : Port → Port) : (s.modPort p f).err = s.err := rfl
@[simp] theorem modPort_parish (p : Nat) (f : Port → Port) : (s.modPort p f).parish = s.parish := rfl
@[simp] theorem modPort_aon (p : Nat) (f : Port → Port) : (s.modPort p f).aon = s.aon := rfl
@[simp] theorem modPort_pwr (p : Nat) (f : Port → Port) : (s.modPort p f).pwr = s.pwr := rfl

/-! ### `setLane` -/

@[simp] theorem setLane_pending (l : Nat) (v : Lane) : (s.setLane l v).pending = s.pending := rfl
@[simp] theorem setLane_free (l : Nat) (v : Lane) : (s.setLane l v).free = s.free := rfl
@[simp] theorem setLane_out (l : Nat) (v : Lane) : (s.setLane l v).out = s.out := rfl
@[simp] theorem setLane_nextPkt (l : Nat) (v : Lane) : (s.setLane l v).nextPkt = s.nextPkt := rfl
@[simp] theorem setLane_lanes (l : Nat) (v : Lane) : (s.setLane l v).lanes = tset s.lanes l {} v := rfl
@[simp] theorem setLane_ports (l : Nat) (v : Lane) : (s.setLane l v).ports = s.ports := rfl
@[simp] theorem setLane_queues (l : Nat) (v : Lane) : (s.setLane l v).queues = s.queues := rfl
@[simp] theorem setLane_parseQ (l : Nat) (v : Lane) : (s.setLane l v).parseQ = s.parseQ := rfl
@[simp] theorem setLane_riwenQ (l : Nat) (v : Lane) : (s.setLane l v).riwenQ = s.riwenQ := rfl
@[simp] theorem setLane_arrivals (l : Nat) (v : Lane) : (s.setLane l v).arrivals = s.arrivals := rfl
@[simp] theorem setLane_parse (l : Nat) (v : Lane) : (s.setLane l v).parse = s.parse := rfl
@[simp] theorem setLane_tbl (l : Nat) (v : Lane) : (s.setLane l v).tbl = s.tbl := rfl
@[simp] theorem setLane_regions (l : Nat) (v : Lane) : (s.setLane l v).regions = s.regions := rfl
@[simp] theorem setLane_glaciers (l : Nat) (v : Lane) : (s.setLane l v).glaciers = s.glaciers := rfl
@[simp] theorem setLane_quotas (l : Nat) (v : Lane) : (s.setLane l v).quotas = s.quotas := rfl
@[simp] theorem setLane_meters (l : Nat) (v : Lane) : (s.setLane l v).meters = s.meters := rfl
@[simp] theorem setLane_time (l : Nat) (v : Lane) : (s.setLane l v).time = s.time := rfl
@[simp] theorem setLane_tally (l : Nat) (v : Lane) : (s.setLane l v).tally = s.tally := rfl
@[simp] theorem setLane_cif (l : Nat) (v : Lane) : (s.setLane l v).cif = s.cif := rfl
@[simp] theorem setLane_stw (l : Nat) (v : Lane) : (s.setLane l v).stw = s.stw := rfl
@[simp] theorem setLane_err (l : Nat) (v : Lane) : (s.setLane l v).err = s.err := rfl
@[simp] theorem setLane_parish (l : Nat) (v : Lane) : (s.setLane l v).parish = s.parish := rfl
@[simp] theorem setLane_aon (l : Nat) (v : Lane) : (s.setLane l v).aon = s.aon := rfl
@[simp] theorem setLane_pwr (l : Nat) (v : Lane) : (s.setLane l v).pwr = s.pwr := rfl

/-! ### `modLane` -/

@[simp] theorem modLane_pending (l : Nat) (f : Lane → Lane) : (s.modLane l f).pending = s.pending := rfl
@[simp] theorem modLane_free (l : Nat) (f : Lane → Lane) : (s.modLane l f).free = s.free := rfl
@[simp] theorem modLane_out (l : Nat) (f : Lane → Lane) : (s.modLane l f).out = s.out := rfl
@[simp] theorem modLane_nextPkt (l : Nat) (f : Lane → Lane) : (s.modLane l f).nextPkt = s.nextPkt := rfl
@[simp] theorem modLane_lanes (l : Nat) (f : Lane → Lane) : (s.modLane l f).lanes = tset s.lanes l {} (f (s.lane l)) := rfl
@[simp] theorem modLane_ports (l : Nat) (f : Lane → Lane) : (s.modLane l f).ports = s.ports := rfl
@[simp] theorem modLane_queues (l : Nat) (f : Lane → Lane) : (s.modLane l f).queues = s.queues := rfl
@[simp] theorem modLane_parseQ (l : Nat) (f : Lane → Lane) : (s.modLane l f).parseQ = s.parseQ := rfl
@[simp] theorem modLane_riwenQ (l : Nat) (f : Lane → Lane) : (s.modLane l f).riwenQ = s.riwenQ := rfl
@[simp] theorem modLane_arrivals (l : Nat) (f : Lane → Lane) : (s.modLane l f).arrivals = s.arrivals := rfl
@[simp] theorem modLane_parse (l : Nat) (f : Lane → Lane) : (s.modLane l f).parse = s.parse := rfl
@[simp] theorem modLane_tbl (l : Nat) (f : Lane → Lane) : (s.modLane l f).tbl = s.tbl := rfl
@[simp] theorem modLane_regions (l : Nat) (f : Lane → Lane) : (s.modLane l f).regions = s.regions := rfl
@[simp] theorem modLane_glaciers (l : Nat) (f : Lane → Lane) : (s.modLane l f).glaciers = s.glaciers := rfl
@[simp] theorem modLane_quotas (l : Nat) (f : Lane → Lane) : (s.modLane l f).quotas = s.quotas := rfl
@[simp] theorem modLane_meters (l : Nat) (f : Lane → Lane) : (s.modLane l f).meters = s.meters := rfl
@[simp] theorem modLane_time (l : Nat) (f : Lane → Lane) : (s.modLane l f).time = s.time := rfl
@[simp] theorem modLane_tally (l : Nat) (f : Lane → Lane) : (s.modLane l f).tally = s.tally := rfl
@[simp] theorem modLane_cif (l : Nat) (f : Lane → Lane) : (s.modLane l f).cif = s.cif := rfl
@[simp] theorem modLane_stw (l : Nat) (f : Lane → Lane) : (s.modLane l f).stw = s.stw := rfl
@[simp] theorem modLane_err (l : Nat) (f : Lane → Lane) : (s.modLane l f).err = s.err := rfl
@[simp] theorem modLane_parish (l : Nat) (f : Lane → Lane) : (s.modLane l f).parish = s.parish := rfl
@[simp] theorem modLane_aon (l : Nat) (f : Lane → Lane) : (s.modLane l f).aon = s.aon := rfl
@[simp] theorem modLane_pwr (l : Nat) (f : Lane → Lane) : (s.modLane l f).pwr = s.pwr := rfl

/-! ### `setQueue` -/

@[simp] theorem setQueue_pending (q : Nat) (v : Queue) : (s.setQueue q v).pending = s.pending := rfl
@[simp] theorem setQueue_free (q : Nat) (v : Queue) : (s.setQueue q v).free = s.free := rfl
@[simp] theorem setQueue_out (q : Nat) (v : Queue) : (s.setQueue q v).out = s.out := rfl
@[simp] theorem setQueue_nextPkt (q : Nat) (v : Queue) : (s.setQueue q v).nextPkt = s.nextPkt := rfl
@[simp] theorem setQueue_lanes (q : Nat) (v : Queue) : (s.setQueue q v).lanes = s.lanes := rfl
@[simp] theorem setQueue_ports (q : Nat) (v : Queue) : (s.setQueue q v).ports = s.ports := rfl
@[simp] theorem setQueue_queues (q : Nat) (v : Queue) : (s.setQueue q v).queues = tset s.queues q {} v := rfl
@[simp] theorem setQueue_parseQ (q : Nat) (v : Queue) : (s.setQueue q v).parseQ = s.parseQ := rfl
@[simp] theorem setQueue_riwenQ (q : Nat) (v : Queue) : (s.setQueue q v).riwenQ = s.riwenQ := rfl
@[simp] theorem setQueue_arrivals (q : Nat) (v : Queue) : (s.setQueue q v).arrivals = s.arrivals := rfl
@[simp] theorem setQueue_parse (q : Nat) (v : Queue) : (s.setQueue q v).parse = s.parse := rfl
@[simp] theorem setQueue_tbl (q : Nat) (v : Queue) : (s.setQueue q v).tbl = s.tbl := rfl
@[simp] theorem setQueue_regions (q : Nat) (v : Queue) : (s.setQueue q v).regions = s.regions := rfl
@[simp] theorem setQueue_glaciers (q : Nat) (v : Queue) : (s.setQueue q v).glaciers = s.glaciers := rfl
@[simp] theorem setQueue_quotas (q : Nat) (v : Queue) : (s.setQueue q v).quotas = s.quotas := rfl
@[simp] theorem setQueue_meters (q : Nat) (v : Queue) : (s.setQueue q v).meters = s.meters := rfl
@[simp] theorem setQueue_time (q : Nat) (v : Queue) : (s.setQueue q v).time = s.time := rfl
@[simp] theorem setQueue_tally (q : Nat) (v : Queue) : (s.setQueue q v).tally = s.tally := rfl
@[simp] theorem setQueue_cif (q : Nat) (v : Queue) : (s.setQueue q v).cif = s.cif := rfl
@[simp] theorem setQueue_stw (q : Nat) (v : Queue) : (s.setQueue q v).stw = s.stw := rfl
@[simp] theorem setQueue_err (q : Nat) (v : Queue) : (s.setQueue q v).err = s.err := rfl
@[simp] theorem setQueue_parish (q : Nat) (v : Queue) : (s.setQueue q v).parish = s.parish := rfl
@[simp] theorem setQueue_aon (q : Nat) (v : Queue) : (s.setQueue q v).aon = s.aon := rfl
@[simp] theorem setQueue_pwr (q : Nat) (v : Queue) : (s.setQueue q v).pwr = s.pwr := rfl

/-! ### `modQueue` -/

@[simp] theorem modQueue_pending (q : Nat) (f : Queue → Queue) : (s.modQueue q f).pending = s.pending := rfl
@[simp] theorem modQueue_free (q : Nat) (f : Queue → Queue) : (s.modQueue q f).free = s.free := rfl
@[simp] theorem modQueue_out (q : Nat) (f : Queue → Queue) : (s.modQueue q f).out = s.out := rfl
@[simp] theorem modQueue_nextPkt (q : Nat) (f : Queue → Queue) : (s.modQueue q f).nextPkt = s.nextPkt := rfl
@[simp] theorem modQueue_lanes (q : Nat) (f : Queue → Queue) : (s.modQueue q f).lanes = s.lanes := rfl
@[simp] theorem modQueue_ports (q : Nat) (f : Queue → Queue) : (s.modQueue q f).ports = s.ports := rfl
@[simp] theorem modQueue_queues (q : Nat) (f : Queue → Queue) : (s.modQueue q f).queues = tset s.queues q {} (f (s.queue q)) := rfl
@[simp] theorem modQueue_parseQ (q : Nat) (f : Queue → Queue) : (s.modQueue q f).parseQ = s.parseQ := rfl
@[simp] theorem modQueue_riwenQ (q : Nat) (f : Queue → Queue) : (s.modQueue q f).riwenQ = s.riwenQ := rfl
@[simp] theorem modQueue_arrivals (q : Nat) (f : Queue → Queue) : (s.modQueue q f).arrivals = s.arrivals := rfl
@[simp] theorem modQueue_parse (q : Nat) (f : Queue → Queue) : (s.modQueue q f).parse = s.parse := rfl
@[simp] theorem modQueue_tbl (q : Nat) (f : Queue → Queue) : (s.modQueue q f).tbl = s.tbl := rfl
@[simp] theorem modQueue_regions (q : Nat) (f : Queue → Queue) : (s.modQueue q f).regions = s.regions := rfl
@[simp] theorem modQueue_glaciers (q : Nat) (f : Queue → Queue) : (s.modQueue q f).glaciers = s.glaciers := rfl
@[simp] theorem modQueue_quotas (q : Nat) (f : Queue → Queue) : (s.modQueue q f).quotas = s.quotas := rfl
@[simp] theorem modQueue_meters (q : Nat) (f : Queue → Queue) : (s.modQueue q f).meters = s.meters := rfl
@[simp] theorem modQueue_time (q : Nat) (f : Queue → Queue) : (s.modQueue q f).time = s.time := rfl
@[simp] theorem modQueue_tally (q : Nat) (f : Queue → Queue) : (s.modQueue q f).tally = s.tally := rfl
@[simp] theorem modQueue_cif (q : Nat) (f : Queue → Queue) : (s.modQueue q f).cif = s.cif := rfl
@[simp] theorem modQueue_stw (q : Nat) (f : Queue → Queue) : (s.modQueue q f).stw = s.stw := rfl
@[simp] theorem modQueue_err (q : Nat) (f : Queue → Queue) : (s.modQueue q f).err = s.err := rfl
@[simp] theorem modQueue_parish (q : Nat) (f : Queue → Queue) : (s.modQueue q f).parish = s.parish := rfl
@[simp] theorem modQueue_aon (q : Nat) (f : Queue → Queue) : (s.modQueue q f).aon = s.aon := rfl
@[simp] theorem modQueue_pwr (q : Nat) (f : Queue → Queue) : (s.modQueue q f).pwr = s.pwr := rfl

/-! ### `setRegion` -/

@[simp] theorem setRegion_pending (r : Nat) (v : Region) : (s.setRegion r v).pending = s.pending := rfl
@[simp] theorem setRegion_free (r : Nat) (v : Region) : (s.setRegion r v).free = s.free := rfl
@[simp] theorem setRegion_out (r : Nat) (v : Region) : (s.setRegion r v).out = s.out := rfl
@[simp] theorem setRegion_nextPkt (r : Nat) (v : Region) : (s.setRegion r v).nextPkt = s.nextPkt := rfl
@[simp] theorem setRegion_lanes (r : Nat) (v : Region) : (s.setRegion r v).lanes = s.lanes := rfl
@[simp] theorem setRegion_ports (r : Nat) (v : Region) : (s.setRegion r v).ports = s.ports := rfl
@[simp] theorem setRegion_queues (r : Nat) (v : Region) : (s.setRegion r v).queues = s.queues := rfl
@[simp] theorem setRegion_parseQ (r : Nat) (v : Region) : (s.setRegion r v).parseQ = s.parseQ := rfl
@[simp] theorem setRegion_riwenQ (r : Nat) (v : Region) : (s.setRegion r v).riwenQ = s.riwenQ := rfl
@[simp] theorem setRegion_arrivals (r : Nat) (v : Region) : (s.setRegion r v).arrivals = s.arrivals := rfl
@[simp] theorem setRegion_parse (r : Nat) (v : Region) : (s.setRegion r v).parse = s.parse := rfl
@[simp] theorem setRegion_tbl (r : Nat) (v : Region) : (s.setRegion r v).tbl = s.tbl := rfl
@[simp] theorem setRegion_regions (r : Nat) (v : Region) : (s.setRegion r v).regions = tset s.regions r {} v := rfl
@[simp] theorem setRegion_glaciers (r : Nat) (v : Region) : (s.setRegion r v).glaciers = s.glaciers := rfl
@[simp] theorem setRegion_quotas (r : Nat) (v : Region) : (s.setRegion r v).quotas = s.quotas := rfl
@[simp] theorem setRegion_meters (r : Nat) (v : Region) : (s.setRegion r v).meters = s.meters := rfl
@[simp] theorem setRegion_time (r : Nat) (v : Region) : (s.setRegion r v).time = s.time := rfl
@[simp] theorem setRegion_tally (r : Nat) (v : Region) : (s.setRegion r v).tally = s.tally := rfl
@[simp] theorem setRegion_cif (r : Nat) (v : Region) : (s.setRegion r v).cif = s.cif := rfl
@[simp] theorem setRegion_stw (r : Nat) (v : Region) : (s.setRegion r v).stw = s.stw := rfl
@[simp] theorem setRegion_err (r : Nat) (v : Region) : (s.setRegion r v).err = s.err := rfl
@[simp] theorem setRegion_parish (r : Nat) (v : Region) : (s.setRegion r v).parish = s.parish := rfl
@[simp] theorem setRegion_aon (r : Nat) (v : Region) : (s.setRegion r v).aon = s.aon := rfl
@[simp] theorem setRegion_pwr (r : Nat) (v : Region) : (s.setRegion r v).pwr = s.pwr := rfl

/-! ### `modRegion` -/

@[simp] theorem modRegion_pending (r : Nat) (f : Region → Region) : (s.modRegion r f).pending = s.pending := rfl
@[simp] theorem modRegion_free (r : Nat) (f : Region → Region) : (s.modRegion r f).free = s.free := rfl
@[simp] theorem modRegion_out (r : Nat) (f : Region → Region) : (s.modRegion r f).out = s.out := rfl
@[simp] theorem modRegion_nextPkt (r : Nat) (f : Region → Region) : (s.modRegion r f).nextPkt = s.nextPkt := rfl
@[simp] theorem modRegion_lanes (r : Nat) (f : Region → Region) : (s.modRegion r f).lanes = s.lanes := rfl
@[simp] theorem modRegion_ports (r : Nat) (f : Region → Region) : (s.modRegion r f).ports = s.ports := rfl
@[simp] theorem modRegion_queues (r : Nat) (f : Region → Region) : (s.modRegion r f).queues = s.queues := rfl
@[simp] theorem modRegion_parseQ (r : Nat) (f : Region → Region) : (s.modRegion r f).parseQ = s.parseQ := rfl
@[simp] theorem modRegion_riwenQ (r : Nat) (f : Region → Region) : (s.modRegion r f).riwenQ = s.riwenQ := rfl
@[simp] theorem modRegion_arrivals (r : Nat) (f : Region → Region) : (s.modRegion r f).arrivals = s.arrivals := rfl
@[simp] theorem modRegion_parse (r : Nat) (f : Region → Region) : (s.modRegion r f).parse = s.parse := rfl
@[simp] theorem modRegion_tbl (r : Nat) (f : Region → Region) : (s.modRegion r f).tbl = s.tbl := rfl
@[simp] theorem modRegion_regions (r : Nat) (f : Region → Region) : (s.modRegion r f).regions = tset s.regions r {} (f (s.region r)) := rfl
@[simp] theorem modRegion_glaciers (r : Nat) (f : Region → Region) : (s.modRegion r f).glaciers = s.glaciers := rfl
@[simp] theorem modRegion_quotas (r : Nat) (f : Region → Region) : (s.modRegion r f).quotas = s.quotas := rfl
@[simp] theorem modRegion_meters (r : Nat) (f : Region → Region) : (s.modRegion r f).meters = s.meters := rfl
@[simp] theorem modRegion_time (r : Nat) (f : Region → Region) : (s.modRegion r f).time = s.time := rfl
@[simp] theorem modRegion_tally (r : Nat) (f : Region → Region) : (s.modRegion r f).tally = s.tally := rfl
@[simp] theorem modRegion_cif (r : Nat) (f : Region → Region) : (s.modRegion r f).cif = s.cif := rfl
@[simp] theorem modRegion_stw (r : Nat) (f : Region → Region) : (s.modRegion r f).stw = s.stw := rfl
@[simp] theorem modRegion_err (r : Nat) (f : Region → Region) : (s.modRegion r f).err = s.err := rfl
@[simp] theorem modRegion_parish (r : Nat) (f : Region → Region) : (s.modRegion r f).parish = s.parish := rfl
@[simp] theorem modRegion_aon (r : Nat) (f : Region → Region) : (s.modRegion r f).aon = s.aon := rfl
@[simp] theorem modRegion_pwr (r : Nat) (f : Region → Region) : (s.modRegion r f).pwr = s.pwr := rfl

/-! ### `setGlacier` -/

@[simp] theorem setGlacier_pending (d : Nat) (v : Glacier) : (s.setGlacier d v).pending = s.pending := rfl
@[simp] theorem setGlacier_free (d : Nat) (v : Glacier) : (s.setGlacier d v).free = s.free := rfl
@[simp] theorem setGlacier_out (d : Nat) (v : Glacier) : (s.setGlacier d v).out = s.out := rfl
@[simp] theorem setGlacier_nextPkt (d : Nat) (v : Glacier) : (s.setGlacier d v).nextPkt = s.nextPkt := rfl
@[simp] theorem setGlacier_lanes (d : Nat) (v : Glacier) : (s.setGlacier d v).lanes = s.lanes := rfl
@[simp] theorem setGlacier_ports (d : Nat) (v : Glacier) : (s.setGlacier d v).ports = s.ports := rfl
@[simp] theorem setGlacier_queues (d : Nat) (v : Glacier) : (s.setGlacier d v).queues = s.queues := rfl
@[simp] theorem setGlacier_parseQ (d : Nat) (v : Glacier) : (s.setGlacier d v).parseQ = s.parseQ := rfl
@[simp] theorem setGlacier_riwenQ (d : Nat) (v : Glacier) : (s.setGlacier d v).riwenQ = s.riwenQ := rfl
@[simp] theorem setGlacier_arrivals (d : Nat) (v : Glacier) : (s.setGlacier d v).arrivals = s.arrivals := rfl
@[simp] theorem setGlacier_parse (d : Nat) (v : Glacier) : (s.setGlacier d v).parse = s.parse := rfl
@[simp] theorem setGlacier_tbl (d : Nat) (v : Glacier) : (s.setGlacier d v).tbl = s.tbl := rfl
@[simp] theorem setGlacier_regions (d : Nat) (v : Glacier) : (s.setGlacier d v).regions = s.regions := rfl
@[simp] theorem setGlacier_glaciers (d : Nat) (v : Glacier) : (s.setGlacier d v).glaciers = tset s.glaciers d {} v := rfl
@[simp] theorem setGlacier_quotas (d : Nat) (v : Glacier) : (s.setGlacier d v).quotas = s.quotas := rfl
@[simp] theorem setGlacier_meters (d : Nat) (v : Glacier) : (s.setGlacier d v).meters = s.meters := rfl
@[simp] theorem setGlacier_time (d : Nat) (v : Glacier) : (s.setGlacier d v).time = s.time := rfl
@[simp] theorem setGlacier_tally (d : Nat) (v : Glacier) : (s.setGlacier d v).tally = s.tally := rfl
@[simp] theorem setGlacier_cif (d : Nat) (v : Glacier) : (s.setGlacier d v).cif = s.cif := rfl
@[simp] theorem setGlacier_stw (d : Nat) (v : Glacier) : (s.setGlacier d v).stw = s.stw := rfl
@[simp] theorem setGlacier_err (d : Nat) (v : Glacier) : (s.setGlacier d v).err = s.err := rfl
@[simp] theorem setGlacier_parish (d : Nat) (v : Glacier) : (s.setGlacier d v).parish = s.parish := rfl
@[simp] theorem setGlacier_aon (d : Nat) (v : Glacier) : (s.setGlacier d v).aon = s.aon := rfl
@[simp] theorem setGlacier_pwr (d : Nat) (v : Glacier) : (s.setGlacier d v).pwr = s.pwr := rfl

/-! ### `modGlacier` -/

@[simp] theorem modGlacier_pending (d : Nat) (f : Glacier → Glacier) : (s.modGlacier d f).pending = s.pending := rfl
@[simp] theorem modGlacier_free (d : Nat) (f : Glacier → Glacier) : (s.modGlacier d f).free = s.free := rfl
@[simp] theorem modGlacier_out (d : Nat) (f : Glacier → Glacier) : (s.modGlacier d f).out = s.out := rfl
@[simp] theorem modGlacier_nextPkt (d : Nat) (f : Glacier → Glacier) : (s.modGlacier d f).nextPkt = s.nextPkt := rfl
@[simp] theorem modGlacier_lanes (d : Nat) (f : Glacier → Glacier) : (s.modGlacier d f).lanes = s.lanes := rfl
@[simp] theorem modGlacier_ports (d : Nat) (f : Glacier → Glacier) : (s.modGlacier d f).ports = s.ports := rfl
@[simp] theorem modGlacier_queues (d : Nat) (f : Glacier → Glacier) : (s.modGlacier d f).queues = s.queues := rfl
@[simp] theorem modGlacier_parseQ (d : Nat) (f : Glacier → Glacier) : (s.modGlacier d f).parseQ = s.parseQ := rfl
@[simp] theorem modGlacier_riwenQ (d : Nat) (f : Glacier → Glacier) : (s.modGlacier d f).riwenQ = s.riwenQ := rfl
@[simp] theorem modGlacier_arrivals (d : Nat) (f : Glacier → Glacier) : (s.modGlacier d f).arrivals = s.arrivals := rfl
@[simp] theorem modGlacier_parse (d : Nat) (f : Glacier → Glacier) : (s.modGlacier d f).parse = s.parse := rfl
@[simp] theorem modGlacier_tbl (d : Nat) (f : Glacier → Glacier) : (s.modGlacier d f).tbl = s.tbl := rfl
@[simp] theorem modGlacier_regions (d : Nat) (f : Glacier → Glacier) : (s.modGlacier d f).regions = s.regions := rfl
@[simp] theorem modGlacier_glaciers (d : Nat) (f : Glacier → Glacier) : (s.modGlacier d f).glaciers = tset s.glaciers d {} (f (s.glacier d)) := rfl
@[simp] theorem modGlacier_quotas (d : Nat) (f : Glacier → Glacier) : (s.modGlacier d f).quotas = s.quotas := rfl
@[simp] theorem modGlacier_meters (d : Nat) (f : Glacier → Glacier) : (s.modGlacier d f).meters = s.meters := rfl
@[simp] theorem modGlacier_time (d : Nat) (f : Glacier → Glacier) : (s.modGlacier d f).time = s.time := rfl
@[simp] theorem modGlacier_tally (d : Nat) (f : Glacier → Glacier) : (s.modGlacier d f).tally = s.tally := rfl
@[simp] theorem modGlacier_cif (d : Nat) (f : Glacier → Glacier) : (s.modGlacier d f).cif = s.cif := rfl
@[simp] theorem modGlacier_stw (d : Nat) (f : Glacier → Glacier) : (s.modGlacier d f).stw = s.stw := rfl
@[simp] theorem modGlacier_err (d : Nat) (f : Glacier → Glacier) : (s.modGlacier d f).err = s.err := rfl
@[simp] theorem modGlacier_parish (d : Nat) (f : Glacier → Glacier) : (s.modGlacier d f).parish = s.parish := rfl
@[simp] theorem modGlacier_aon (d : Nat) (f : Glacier → Glacier) : (s.modGlacier d f).aon = s.aon := rfl
@[simp] theorem modGlacier_pwr (d : Nat) (f : Glacier → Glacier) : (s.modGlacier d f).pwr = s.pwr := rfl

/-! ### `setMeter` -/

@[simp] theorem setMeter_pending (r i : Nat) (v : Meter) : (s.setMeter r i v).pending = s.pending := rfl
@[simp] theorem setMeter_free (r i : Nat) (v : Meter) : (s.setMeter r i v).free = s.free := rfl
@[simp] theorem setMeter_out (r i : Nat) (v : Meter) : (s.setMeter r i v).out = s.out := rfl
@[simp] theorem setMeter_nextPkt (r i : Nat) (v : Meter) : (s.setMeter r i v).nextPkt = s.nextPkt := rfl
@[simp] theorem setMeter_lanes (r i : Nat) (v : Meter) : (s.setMeter r i v).lanes = s.lanes := rfl
@[simp] theorem setMeter_ports (r i : Nat) (v : Meter) : (s.setMeter r i v).ports = s.ports := rfl
@[simp] theorem setMeter_queues (r i : Nat) (v : Meter) : (s.setMeter r i v).queues = s.queues := rfl
@[simp] theorem setMeter_parseQ (r i : Nat) (v : Meter) : (s.setMeter r i v).parseQ = s.parseQ := rfl
@[simp] theorem setMeter_riwenQ (r i : Nat) (v : Meter) : (s.setMeter r i v).riwenQ = s.riwenQ := rfl
@[simp] theorem setMeter_arrivals (r i : Nat) (v : Meter) : (s.setMeter r i v).arrivals = s.arrivals := rfl
@[simp] theorem setMeter_parse (r i : Nat) (v : Meter) : (s.setMeter r i v).parse = s.parse := rfl
@[simp] theorem setMeter_tbl (r i : Nat) (v : Meter) : (s.setMeter r i v).tbl = s.tbl := rfl
@[simp] theorem setMeter_regions (r i : Nat) (v : Meter) : (s.setMeter r i v).regions = s.regions := rfl
@[simp] theorem setMeter_glaciers (r i : Nat) (v : Meter) : (s.setMeter r i v).glaciers = s.glaciers := rfl
@[simp] theorem setMeter_quotas (r i : Nat) (v : Meter) : (s.setMeter r i v).quotas = s.quotas := rfl
@[simp] theorem setMeter_meters (r i : Nat) (v : Meter) : (s.setMeter r i v).meters = tset s.meters (r * 65536 + i) {} v := rfl
@[simp] theorem setMeter_time (r i : Nat) (v : Meter) : (s.setMeter r i v).time = s.time := rfl
@[simp] theorem setMeter_tally (r i : Nat) (v : Meter) : (s.setMeter r i v).tally = s.tally := rfl
@[simp] theorem setMeter_cif (r i : Nat) (v : Meter) : (s.setMeter r i v).cif = s.cif := rfl
@[simp] theorem setMeter_stw (r i : Nat) (v : Meter) : (s.setMeter r i v).stw = s.stw := rfl
@[simp] theorem setMeter_err (r i : Nat) (v : Meter) : (s.setMeter r i v).err = s.err := rfl
@[simp] theorem setMeter_parish (r i : Nat) (v : Meter) : (s.setMeter r i v).parish = s.parish := rfl
@[simp] theorem setMeter_aon (r i : Nat) (v : Meter) : (s.setMeter r i v).aon = s.aon := rfl
@[simp] theorem setMeter_pwr (r i : Nat) (v : Meter) : (s.setMeter r i v).pwr = s.pwr := rfl

/-! ### `emit` -/

@[simp] theorem emit_pending (o : Out) : (s.emit o).pending = s.pending := rfl
@[simp] theorem emit_free (o : Out) : (s.emit o).free = s.free := rfl
@[simp] theorem emit_out (o : Out) : (s.emit o).out = s.out ++ [o] := rfl
@[simp] theorem emit_nextPkt (o : Out) : (s.emit o).nextPkt = s.nextPkt := rfl
@[simp] theorem emit_lanes (o : Out) : (s.emit o).lanes = s.lanes := rfl
@[simp] theorem emit_ports (o : Out) : (s.emit o).ports = s.ports := rfl
@[simp] theorem emit_queues (o : Out) : (s.emit o).queues = s.queues := rfl
@[simp] theorem emit_parseQ (o : Out) : (s.emit o).parseQ = s.parseQ := rfl
@[simp] theorem emit_riwenQ (o : Out) : (s.emit o).riwenQ = s.riwenQ := rfl
@[simp] theorem emit_arrivals (o : Out) : (s.emit o).arrivals = s.arrivals := rfl
@[simp] theorem emit_parse (o : Out) : (s.emit o).parse = s.parse := rfl
@[simp] theorem emit_tbl (o : Out) : (s.emit o).tbl = s.tbl := rfl
@[simp] theorem emit_regions (o : Out) : (s.emit o).regions = s.regions := rfl
@[simp] theorem emit_glaciers (o : Out) : (s.emit o).glaciers = s.glaciers := rfl
@[simp] theorem emit_quotas (o : Out) : (s.emit o).quotas = s.quotas := rfl
@[simp] theorem emit_meters (o : Out) : (s.emit o).meters = s.meters := rfl
@[simp] theorem emit_time (o : Out) : (s.emit o).time = s.time := rfl
@[simp] theorem emit_tally (o : Out) : (s.emit o).tally = s.tally := rfl
@[simp] theorem emit_cif (o : Out) : (s.emit o).cif = s.cif := rfl
@[simp] theorem emit_stw (o : Out) : (s.emit o).stw = s.stw := rfl
@[simp] theorem emit_err (o : Out) : (s.emit o).err = s.err := rfl
@[simp] theorem emit_parish (o : Out) : (s.emit o).parish = s.parish := rfl
@[simp] theorem emit_aon (o : Out) : (s.emit o).aon = s.aon := rfl
@[simp] theorem emit_pwr (o : Out) : (s.emit o).pwr = s.pwr := rfl

/-! ### `fresh` -/

@[simp] theorem fresh_pending  : (s.fresh.2).pending = s.pending := rfl
@[simp] theorem fresh_free  : (s.fresh.2).free = s.free + 1 := rfl
@[simp] theorem fresh_out  : (s.fresh.2).out = s.out := rfl
@[simp] theorem fresh_nextPkt  : (s.fresh.2).nextPkt = s.nextPkt := rfl
@[simp] theorem fresh_lanes  : (s.fresh.2).lanes = s.lanes := rfl
@[simp] theorem fresh_ports  : (s.fresh.2).ports = s.ports := rfl
@[simp] theorem fresh_queues  : (s.fresh.2).queues = s.queues := rfl
@[simp] theorem fresh_parseQ  : (s.fresh.2).parseQ = s.parseQ := rfl
@[simp] theorem fresh_riwenQ  : (s.fresh.2).riwenQ = s.riwenQ := rfl
@[simp] theorem fresh_arrivals  : (s.fresh.2).arrivals = s.arrivals := rfl
@[simp] theorem fresh_parse  : (s.fresh.2).parse = s.parse := rfl
@[simp] theorem fresh_tbl  : (s.fresh.2).tbl = s.tbl := rfl
@[simp] theorem fresh_regions  : (s.fresh.2).regions = s.regions := rfl
@[simp] theorem fresh_glaciers  : (s.fresh.2).glaciers = s.glaciers := rfl
@[simp] theorem fresh_quotas  : (s.fresh.2).quotas = s.quotas := rfl
@[simp] theorem fresh_meters  : (s.fresh.2).meters = s.meters := rfl
@[simp] theorem fresh_time  : (s.fresh.2).time = s.time := rfl
@[simp] theorem fresh_tally  : (s.fresh.2).tally = s.tally := rfl
@[simp] theorem fresh_cif  : (s.fresh.2).cif = s.cif := rfl
@[simp] theorem fresh_stw  : (s.fresh.2).stw = s.stw := rfl
@[simp] theorem fresh_err  : (s.fresh.2).err = s.err := rfl
@[simp] theorem fresh_parish  : (s.fresh.2).parish = s.parish := rfl
@[simp] theorem fresh_aon  : (s.fresh.2).aon = s.aon := rfl
@[simp] theorem fresh_pwr  : (s.fresh.2).pwr = s.pwr := rfl

/-! ### `setFunc` -/

@[simp] theorem setFunc_pending (f : Nat) (v : Func) : (s.setFunc f v).pending = s.pending := rfl
@[simp] theorem setFunc_free (f : Nat) (v : Func) : (s.setFunc f v).free = s.free := rfl
@[simp] theorem setFunc_out (f : Nat) (v : Func) : (s.setFunc f v).out = s.out := rfl
@[simp] theorem setFunc_nextPkt (f : Nat) (v : Func) : (s.setFunc f v).nextPkt = s.nextPkt := rfl
@[simp] theorem setFunc_lanes (f : Nat) (v : Func) : (s.setFunc f v).lanes = s.lanes := rfl
@[simp] theorem setFunc_ports (f : Nat) (v : Func) : (s.setFunc f v).ports = s.ports := rfl
@[simp] theorem setFunc_queues (f : Nat) (v : Func) : (s.setFunc f v).queues = s.queues := rfl
@[simp] theorem setFunc_parseQ (f : Nat) (v : Func) : (s.setFunc f v).parseQ = s.parseQ := rfl
@[simp] theorem setFunc_riwenQ (f : Nat) (v : Func) : (s.setFunc f v).riwenQ = s.riwenQ := rfl
@[simp] theorem setFunc_arrivals (f : Nat) (v : Func) : (s.setFunc f v).arrivals = s.arrivals := rfl
@[simp] theorem setFunc_parse (f : Nat) (v : Func) : (s.setFunc f v).parse = s.parse := rfl
@[simp] theorem setFunc_tbl (f : Nat) (v : Func) : (s.setFunc f v).tbl = s.tbl := rfl
@[simp] theorem setFunc_regions (f : Nat) (v : Func) : (s.setFunc f v).regions = s.regions := rfl
@[simp] theorem setFunc_glaciers (f : Nat) (v : Func) : (s.setFunc f v).glaciers = s.glaciers := rfl
@[simp] theorem setFunc_quotas (f : Nat) (v : Func) : (s.setFunc f v).quotas = s.quotas := rfl
@[simp] theorem setFunc_meters (f : Nat) (v : Func) : (s.setFunc f v).meters = s.meters := rfl
@[simp] theorem setFunc_time (f : Nat) (v : Func) : (s.setFunc f v).time = s.time := rfl
@[simp] theorem setFunc_tally (f : Nat) (v : Func) : (s.setFunc f v).tally = s.tally := rfl
@[simp] theorem setFunc_flights (f : Nat) (v : Func) : (s.setFunc f v).cif.flights = s.cif.flights := rfl
@[simp] theorem setFunc_nextTurn (f : Nat) (v : Func) : (s.setFunc f v).cif.nextTurn = s.cif.nextTurn := rfl
@[simp] theorem setFunc_results (f : Nat) (v : Func) : (s.setFunc f v).cif.results = s.cif.results := rfl
@[simp] theorem setFunc_funcs (f : Nat) (v : Func) : (s.setFunc f v).cif.funcs = tset s.cif.funcs f {} v := rfl
@[simp] theorem setFunc_rights (f : Nat) (v : Func) : (s.setFunc f v).cif.rights = s.cif.rights := rfl
@[simp] theorem setFunc_mgmtPriv (f : Nat) (v : Func) : (s.setFunc f v).cif.mgmtPriv = s.cif.mgmtPriv := rfl
@[simp] theorem setFunc_dests (f : Nat) (v : Func) : (s.setFunc f v).cif.dests = s.cif.dests := rfl
@[simp] theorem setFunc_holds (f : Nat) (v : Func) : (s.setFunc f v).cif.holds = s.cif.holds := rfl
@[simp] theorem setFunc_codeMap (f : Nat) (v : Func) : (s.setFunc f v).cif.codeMap = s.cif.codeMap := rfl
@[simp] theorem setFunc_epochs (f : Nat) (v : Func) : (s.setFunc f v).cif.epochs = s.cif.epochs := rfl
@[simp] theorem setFunc_ignoredWrites (f : Nat) (v : Func) : (s.setFunc f v).cif.ignoredWrites = s.cif.ignoredWrites := rfl
@[simp] theorem setFunc_pcieUp (f : Nat) (v : Func) : (s.setFunc f v).cif.pcieUp = s.cif.pcieUp := rfl
@[simp] theorem setFunc_stw (f : Nat) (v : Func) : (s.setFunc f v).stw = s.stw := rfl
@[simp] theorem setFunc_err (f : Nat) (v : Func) : (s.setFunc f v).err = s.err := rfl
@[simp] theorem setFunc_parish (f : Nat) (v : Func) : (s.setFunc f v).parish = s.parish := rfl
@[simp] theorem setFunc_aon (f : Nat) (v : Func) : (s.setFunc f v).aon = s.aon := rfl
@[simp] theorem setFunc_pwr (f : Nat) (v : Func) : (s.setFunc f v).pwr = s.pwr := rfl

/-! ### `setCopy` -/

@[simp] theorem setCopy_pending (r : Nat) (v : CopyState) : (s.setCopy r v).pending = s.pending := rfl
@[simp] theorem setCopy_free (r : Nat) (v : CopyState) : (s.setCopy r v).free = s.free := rfl
@[simp] theorem setCopy_out (r : Nat) (v : CopyState) : (s.setCopy r v).out = s.out := rfl
@[simp] theorem setCopy_nextPkt (r : Nat) (v : CopyState) : (s.setCopy r v).nextPkt = s.nextPkt := rfl
@[simp] theorem setCopy_lanes (r : Nat) (v : CopyState) : (s.setCopy r v).lanes = s.lanes := rfl
@[simp] theorem setCopy_ports (r : Nat) (v : CopyState) : (s.setCopy r v).ports = s.ports := rfl
@[simp] theorem setCopy_queues (r : Nat) (v : CopyState) : (s.setCopy r v).queues = s.queues := rfl
@[simp] theorem setCopy_parseQ (r : Nat) (v : CopyState) : (s.setCopy r v).parseQ = s.parseQ := rfl
@[simp] theorem setCopy_riwenQ (r : Nat) (v : CopyState) : (s.setCopy r v).riwenQ = s.riwenQ := rfl
@[simp] theorem setCopy_arrivals (r : Nat) (v : CopyState) : (s.setCopy r v).arrivals = s.arrivals := rfl
@[simp] theorem setCopy_parse (r : Nat) (v : CopyState) : (s.setCopy r v).parse = s.parse := rfl
@[simp] theorem setCopy_tbl (r : Nat) (v : CopyState) : (s.setCopy r v).tbl = { s.tbl with copies := tset s.tbl.copies r {} v } := rfl
@[simp] theorem setCopy_regions (r : Nat) (v : CopyState) : (s.setCopy r v).regions = s.regions := rfl
@[simp] theorem setCopy_glaciers (r : Nat) (v : CopyState) : (s.setCopy r v).glaciers = s.glaciers := rfl
@[simp] theorem setCopy_quotas (r : Nat) (v : CopyState) : (s.setCopy r v).quotas = s.quotas := rfl
@[simp] theorem setCopy_meters (r : Nat) (v : CopyState) : (s.setCopy r v).meters = s.meters := rfl
@[simp] theorem setCopy_time (r : Nat) (v : CopyState) : (s.setCopy r v).time = s.time := rfl
@[simp] theorem setCopy_tally (r : Nat) (v : CopyState) : (s.setCopy r v).tally = s.tally := rfl
@[simp] theorem setCopy_cif (r : Nat) (v : CopyState) : (s.setCopy r v).cif = s.cif := rfl
@[simp] theorem setCopy_stw (r : Nat) (v : CopyState) : (s.setCopy r v).stw = s.stw := rfl
@[simp] theorem setCopy_err (r : Nat) (v : CopyState) : (s.setCopy r v).err = s.err := rfl
@[simp] theorem setCopy_parish (r : Nat) (v : CopyState) : (s.setCopy r v).parish = s.parish := rfl
@[simp] theorem setCopy_aon (r : Nat) (v : CopyState) : (s.setCopy r v).aon = s.aon := rfl
@[simp] theorem setCopy_pwr (r : Nat) (v : CopyState) : (s.setCopy r v).pwr = s.pwr := rfl

/-! ### `setEngine` -/

@[simp] theorem setEngine_pending (e : Nat) (v : Steward) : (s.setEngine e v).pending = s.pending := rfl
@[simp] theorem setEngine_free (e : Nat) (v : Steward) : (s.setEngine e v).free = s.free := rfl
@[simp] theorem setEngine_out (e : Nat) (v : Steward) : (s.setEngine e v).out = s.out := rfl
@[simp] theorem setEngine_nextPkt (e : Nat) (v : Steward) : (s.setEngine e v).nextPkt = s.nextPkt := rfl
@[simp] theorem setEngine_lanes (e : Nat) (v : Steward) : (s.setEngine e v).lanes = s.lanes := rfl
@[simp] theorem setEngine_ports (e : Nat) (v : Steward) : (s.setEngine e v).ports = s.ports := rfl
@[simp] theorem setEngine_queues (e : Nat) (v : Steward) : (s.setEngine e v).queues = s.queues := rfl
@[simp] theorem setEngine_parseQ (e : Nat) (v : Steward) : (s.setEngine e v).parseQ = s.parseQ := rfl
@[simp] theorem setEngine_riwenQ (e : Nat) (v : Steward) : (s.setEngine e v).riwenQ = s.riwenQ := rfl
@[simp] theorem setEngine_arrivals (e : Nat) (v : Steward) : (s.setEngine e v).arrivals = s.arrivals := rfl
@[simp] theorem setEngine_parse (e : Nat) (v : Steward) : (s.setEngine e v).parse = s.parse := rfl
@[simp] theorem setEngine_tbl (e : Nat) (v : Steward) : (s.setEngine e v).tbl = s.tbl := rfl
@[simp] theorem setEngine_regions (e : Nat) (v : Steward) : (s.setEngine e v).regions = s.regions := rfl
@[simp] theorem setEngine_glaciers (e : Nat) (v : Steward) : (s.setEngine e v).glaciers = s.glaciers := rfl
@[simp] theorem setEngine_quotas (e : Nat) (v : Steward) : (s.setEngine e v).quotas = s.quotas := rfl
@[simp] theorem setEngine_meters (e : Nat) (v : Steward) : (s.setEngine e v).meters = s.meters := rfl
@[simp] theorem setEngine_time (e : Nat) (v : Steward) : (s.setEngine e v).time = s.time := rfl
@[simp] theorem setEngine_tally (e : Nat) (v : Steward) : (s.setEngine e v).tally = s.tally := rfl
@[simp] theorem setEngine_cif (e : Nat) (v : Steward) : (s.setEngine e v).cif = s.cif := rfl
@[simp] theorem setEngine_stw (e : Nat) (v : Steward) : (s.setEngine e v).stw = { s.stw with engines := tset s.stw.engines e {} v } := rfl
@[simp] theorem setEngine_err (e : Nat) (v : Steward) : (s.setEngine e v).err = s.err := rfl
@[simp] theorem setEngine_parish (e : Nat) (v : Steward) : (s.setEngine e v).parish = s.parish := rfl
@[simp] theorem setEngine_aon (e : Nat) (v : Steward) : (s.setEngine e v).aon = s.aon := rfl
@[simp] theorem setEngine_pwr (e : Nat) (v : Steward) : (s.setEngine e v).pwr = s.pwr := rfl

/-! ### `perf` -/

@[simp] theorem perf_pending (o : Occurs) (n : Nat) : (s.perf o n).pending = s.pending := rfl
@[simp] theorem perf_free (o : Occurs) (n : Nat) : (s.perf o n).free = s.free := rfl
@[simp] theorem perf_out (o : Occurs) (n : Nat) : (s.perf o n).out = s.out := rfl
@[simp] theorem perf_nextPkt (o : Occurs) (n : Nat) : (s.perf o n).nextPkt = s.nextPkt := rfl
@[simp] theorem perf_lanes (o : Occurs) (n : Nat) : (s.perf o n).lanes = s.lanes := rfl
@[simp] theorem perf_ports (o : Occurs) (n : Nat) : (s.perf o n).ports = s.ports := rfl
@[simp] theorem perf_queues (o : Occurs) (n : Nat) : (s.perf o n).queues = s.queues := rfl
@[simp] theorem perf_parseQ (o : Occurs) (n : Nat) : (s.perf o n).parseQ = s.parseQ := rfl
@[simp] theorem perf_riwenQ (o : Occurs) (n : Nat) : (s.perf o n).riwenQ = s.riwenQ := rfl
@[simp] theorem perf_arrivals (o : Occurs) (n : Nat) : (s.perf o n).arrivals = s.arrivals := rfl
@[simp] theorem perf_parse (o : Occurs) (n : Nat) : (s.perf o n).parse = s.parse := rfl
@[simp] theorem perf_tbl (o : Occurs) (n : Nat) : (s.perf o n).tbl = s.tbl := rfl
@[simp] theorem perf_regions (o : Occurs) (n : Nat) : (s.perf o n).regions = s.regions := rfl
@[simp] theorem perf_glaciers (o : Occurs) (n : Nat) : (s.perf o n).glaciers = s.glaciers := rfl
@[simp] theorem perf_quotas (o : Occurs) (n : Nat) : (s.perf o n).quotas = s.quotas := rfl
@[simp] theorem perf_meters (o : Occurs) (n : Nat) : (s.perf o n).meters = s.meters := rfl
@[simp] theorem perf_time (o : Occurs) (n : Nat) : (s.perf o n).time = s.time := rfl
@[simp] theorem perf_tally (o : Occurs) (n : Nat) : (s.perf o n).tally = { s.tally with perf := s.tally.perf.map fun e => if e.2.counts o then (e.1, { e.2 with count := e.2.count.add n }) else e } := rfl
@[simp] theorem perf_cif (o : Occurs) (n : Nat) : (s.perf o n).cif = s.cif := rfl
@[simp] theorem perf_stw (o : Occurs) (n : Nat) : (s.perf o n).stw = s.stw := rfl
@[simp] theorem perf_err (o : Occurs) (n : Nat) : (s.perf o n).err = s.err := rfl
@[simp] theorem perf_parish (o : Occurs) (n : Nat) : (s.perf o n).parish = s.parish := rfl
@[simp] theorem perf_aon (o : Occurs) (n : Nat) : (s.perf o n).aon = s.aon := rfl
@[simp] theorem perf_pwr (o : Occurs) (n : Nat) : (s.perf o n).pwr = s.pwr := rfl

/-! ### `answer` -/

@[simp] theorem answer_pending (c : Cmd) (a : Ans) : (s.answer c a).pending = s.pending := rfl
@[simp] theorem answer_free (c : Cmd) (a : Ans) : (s.answer c a).free = s.free := rfl
@[simp] theorem answer_out (c : Cmd) (a : Ans) : (s.answer c a).out = s.out := rfl
@[simp] theorem answer_nextPkt (c : Cmd) (a : Ans) : (s.answer c a).nextPkt = s.nextPkt := rfl
@[simp] theorem answer_lanes (c : Cmd) (a : Ans) : (s.answer c a).lanes = s.lanes := rfl
@[simp] theorem answer_ports (c : Cmd) (a : Ans) : (s.answer c a).ports = s.ports := rfl
@[simp] theorem answer_queues (c : Cmd) (a : Ans) : (s.answer c a).queues = s.queues := rfl
@[simp] theorem answer_parseQ (c : Cmd) (a : Ans) : (s.answer c a).parseQ = s.parseQ := rfl
@[simp] theorem answer_riwenQ (c : Cmd) (a : Ans) : (s.answer c a).riwenQ = s.riwenQ := rfl
@[simp] theorem answer_arrivals (c : Cmd) (a : Ans) : (s.answer c a).arrivals = s.arrivals := rfl
@[simp] theorem answer_parse (c : Cmd) (a : Ans) : (s.answer c a).parse = s.parse := rfl
@[simp] theorem answer_tbl (c : Cmd) (a : Ans) : (s.answer c a).tbl = s.tbl := rfl
@[simp] theorem answer_regions (c : Cmd) (a : Ans) : (s.answer c a).regions = s.regions := rfl
@[simp] theorem answer_glaciers (c : Cmd) (a : Ans) : (s.answer c a).glaciers = s.glaciers := rfl
@[simp] theorem answer_quotas (c : Cmd) (a : Ans) : (s.answer c a).quotas = s.quotas := rfl
@[simp] theorem answer_meters (c : Cmd) (a : Ans) : (s.answer c a).meters = s.meters := rfl
@[simp] theorem answer_time (c : Cmd) (a : Ans) : (s.answer c a).time = s.time := rfl
@[simp] theorem answer_tally (c : Cmd) (a : Ans) : (s.answer c a).tally = s.tally := rfl
@[simp] theorem answer_flights (c : Cmd) (a : Ans) : (s.answer c a).cif.flights = s.cif.flights := rfl
@[simp] theorem answer_nextTurn (c : Cmd) (a : Ans) : (s.answer c a).cif.nextTurn = s.cif.nextTurn := rfl
@[simp] theorem answer_results (c : Cmd) (a : Ans) : (s.answer c a).cif.results = s.cif.results ++ [s.mkReply c a.status a.words a.late] := rfl
@[simp] theorem answer_funcs (c : Cmd) (a : Ans) : (s.answer c a).cif.funcs = s.cif.funcs := rfl
@[simp] theorem answer_rights (c : Cmd) (a : Ans) : (s.answer c a).cif.rights = s.cif.rights := rfl
@[simp] theorem answer_mgmtPriv (c : Cmd) (a : Ans) : (s.answer c a).cif.mgmtPriv = s.cif.mgmtPriv := rfl
@[simp] theorem answer_dests (c : Cmd) (a : Ans) : (s.answer c a).cif.dests = s.cif.dests := rfl
@[simp] theorem answer_holds (c : Cmd) (a : Ans) : (s.answer c a).cif.holds = s.cif.holds := rfl
@[simp] theorem answer_codeMap (c : Cmd) (a : Ans) : (s.answer c a).cif.codeMap = s.cif.codeMap := rfl
@[simp] theorem answer_epochs (c : Cmd) (a : Ans) : (s.answer c a).cif.epochs = s.cif.epochs := rfl
@[simp] theorem answer_ignoredWrites (c : Cmd) (a : Ans) : (s.answer c a).cif.ignoredWrites = s.cif.ignoredWrites := rfl
@[simp] theorem answer_pcieUp (c : Cmd) (a : Ans) : (s.answer c a).cif.pcieUp = s.cif.pcieUp := rfl
@[simp] theorem answer_stw (c : Cmd) (a : Ans) : (s.answer c a).stw = s.stw := rfl
@[simp] theorem answer_err (c : Cmd) (a : Ans) : (s.answer c a).err = s.err := rfl
@[simp] theorem answer_parish (c : Cmd) (a : Ans) : (s.answer c a).parish = s.parish := rfl
@[simp] theorem answer_aon (c : Cmd) (a : Ans) : (s.answer c a).aon = s.aon := rfl
@[simp] theorem answer_pwr (c : Cmd) (a : Ans) : (s.answer c a).pwr = s.pwr := rfl

/-! ### The object that was written -/

@[simp] theorem port_setPort (p : Nat) (v : Port) : (s.setPort p v).port p = v := by simp [State.port]
@[simp] theorem port?_setPort (p : Nat) (v : Port) : (s.setPort p v).port? p = some v := by simp [State.port?]
@[simp] theorem lane_setLane (l : Nat) (v : Lane) : (s.setLane l v).lane l = v := by simp [State.lane]
@[simp] theorem lane_modLane (l : Nat) (f : Lane → Lane) : (s.modLane l f).lane l = f (s.lane l) := by simp [State.lane]
@[simp] theorem queue_setQueue (q : Nat) (v : Queue) : (s.setQueue q v).queue q = v := by simp [State.queue]
@[simp] theorem queue_modQueue (q : Nat) (f : Queue → Queue) : (s.modQueue q f).queue q = f (s.queue q) := by
  simp [State.queue]
@[simp] theorem region_setRegion (r : Nat) (v : Region) : (s.setRegion r v).region r = v := by simp [State.region]
@[simp] theorem region_modRegion (r : Nat) (f : Region → Region) : (s.modRegion r f).region r = f (s.region r) := by
  simp [State.region]
@[simp] theorem glacier_setGlacier (d : Nat) (v : Glacier) : (s.setGlacier d v).glacier d = v := by simp [State.glacier]
@[simp] theorem func_setFunc (f : Nat) (v : Func) : (s.setFunc f v).func f = v := by simp [State.func]
@[simp] theorem copyOf_setCopy (r : Nat) (v : CopyState) : (s.setCopy r v).copyOf r = v := by simp [State.copyOf]
@[simp] theorem engine_setEngine (e : Nat) (v : Steward) : (s.setEngine e v).engine e = v := by simp [State.engine]
@[simp] theorem meter_setMeter (r i : Nat) (v : Meter) : (s.setMeter r i v).meter r i = v := by simp [State.meter]

/-! ### Objects after leaving a result -/

@[simp] theorem answer_port (c : Cmd) (a : Ans) (p : Nat) : (s.answer c a).port p = s.port p := rfl
@[simp] theorem answer_port? (c : Cmd) (a : Ans) (p : Nat) : (s.answer c a).port? p = s.port? p := rfl
@[simp] theorem answer_lane (c : Cmd) (a : Ans) (p : Nat) : (s.answer c a).lane p = s.lane p := rfl
@[simp] theorem answer_queue (c : Cmd) (a : Ans) (p : Nat) : (s.answer c a).queue p = s.queue p := rfl
@[simp] theorem answer_region (c : Cmd) (a : Ans) (p : Nat) : (s.answer c a).region p = s.region p := rfl
@[simp] theorem answer_glacier (c : Cmd) (a : Ans) (p : Nat) : (s.answer c a).glacier p = s.glacier p := rfl
@[simp] theorem answer_func (c : Cmd) (a : Ans) (p : Nat) : (s.answer c a).func p = s.func p := rfl
@[simp] theorem answer_copyOf (c : Cmd) (a : Ans) (p : Nat) : (s.answer c a).copyOf p = s.copyOf p := rfl
@[simp] theorem answer_engine (c : Cmd) (a : Ans) (p : Nat) : (s.answer c a).engine p = s.engine p := rfl
@[simp] theorem answer_meter (c : Cmd) (a : Ans) (r i : Nat) : (s.answer c a).meter r i = s.meter r i := rfl
@[simp] theorem answer_mkReply (c d : Cmd) (a : Ans) (st : Nat) (ws : List Word) (l : Bool) :
    (s.answer c a).mkReply d st ws l = s.mkReply d st ws l := rfl

/-! ### Counting the table changes of a command -/

/-- The command committed no table change: nothing is counted. -/
theorem commits_none (c : Cmd) (t : State) (h : t.tbl.tsn = s.tbl.tsn) : s.commits c t = t := by simp [State.commits, h]

@[simp] theorem commits_pending (c : Cmd) (t : State) : (s.commits c t).pending = t.pending := by
  simp only [State.commits]; split <;> rfl
@[simp] theorem commits_free (c : Cmd) (t : State) : (s.commits c t).free = t.free := by
  simp only [State.commits]; split <;> rfl
@[simp] theorem commits_out (c : Cmd) (t : State) : (s.commits c t).out = t.out := by
  simp only [State.commits]; split <;> rfl
@[simp] theorem commits_nextPkt (c : Cmd) (t : State) : (s.commits c t).nextPkt = t.nextPkt := by
  simp only [State.commits]; split <;> rfl
@[simp] theorem commits_lanes (c : Cmd) (t : State) : (s.commits c t).lanes = t.lanes := by
  simp only [State.commits]; split <;> rfl
@[simp] theorem commits_ports (c : Cmd) (t : State) : (s.commits c t).ports = t.ports := by
  simp only [State.commits]; split <;> rfl
@[simp] theorem commits_queues (c : Cmd) (t : State) : (s.commits c t).queues = t.queues := by
  simp only [State.commits]; split <;> rfl
@[simp] theorem commits_parseQ (c : Cmd) (t : State) : (s.commits c t).parseQ = t.parseQ := by
  simp only [State.commits]; split <;> rfl
@[simp] theorem commits_riwenQ (c : Cmd) (t : State) : (s.commits c t).riwenQ = t.riwenQ := by
  simp only [State.commits]; split <;> rfl
@[simp] theorem commits_arrivals (c : Cmd) (t : State) : (s.commits c t).arrivals = t.arrivals := by
  simp only [State.commits]; split <;> rfl
@[simp] theorem commits_parse (c : Cmd) (t : State) : (s.commits c t).parse = t.parse := by
  simp only [State.commits]; split <;> rfl
@[simp] theorem commits_tbl (c : Cmd) (t : State) : (s.commits c t).tbl = t.tbl := by
  simp only [State.commits]; split <;> rfl
@[simp] theorem commits_regions (c : Cmd) (t : State) : (s.commits c t).regions = t.regions := by
  simp only [State.commits]; split <;> rfl
@[simp] theorem commits_glaciers (c : Cmd) (t : State) : (s.commits c t).glaciers = t.glaciers := by
  simp only [State.commits]; split <;> rfl
@[simp] theorem commits_quotas (c : Cmd) (t : State) : (s.commits c t).quotas = t.quotas := by
  simp only [State.commits]; split <;> rfl
@[simp] theorem commits_meters (c : Cmd) (t : State) : (s.commits c t).meters = t.meters := by
  simp only [State.commits]; split <;> rfl
@[simp] theorem commits_time (c : Cmd) (t : State) : (s.commits c t).time = t.time := by
  simp only [State.commits]; split <;> rfl
@[simp] theorem commits_cif (c : Cmd) (t : State) : (s.commits c t).cif = t.cif := by
  simp only [State.commits]; split <;> rfl
@[simp] theorem commits_stw (c : Cmd) (t : State) : (s.commits c t).stw = t.stw := by
  simp only [State.commits]; split <;> rfl
@[simp] theorem commits_err (c : Cmd) (t : State) : (s.commits c t).err = t.err := by
  simp only [State.commits]; split <;> rfl
@[simp] theorem commits_parish (c : Cmd) (t : State) : (s.commits c t).parish = t.parish := by
  simp only [State.commits]; split <;> rfl
@[simp] theorem commits_aon (c : Cmd) (t : State) : (s.commits c t).aon = t.aon := by
  simp only [State.commits]; split <;> rfl
@[simp] theorem commits_pwr (c : Cmd) (t : State) : (s.commits c t).pwr = t.pwr := by
  simp only [State.commits]; split <;> rfl
@[simp] theorem commits_port (c : Cmd) (t : State) (p : Nat) : (s.commits c t).port p = t.port p := by simp [State.port]
@[simp] theorem commits_port? (c : Cmd) (t : State) (p : Nat) : (s.commits c t).port? p = t.port? p := by simp [State.port?]
@[simp] theorem commits_mkReply (c d : Cmd) (t : State) (st : Nat) (ws : List Word) (l : Bool) :
    (s.commits c t).mkReply d st ws l = t.mkReply d st ws l := by simp [State.mkReply, State.beatLow]
/-- Of the tallies only the performance counters change. -/
@[simp] theorem commits_tally (c : Cmd) (t : State) : { (s.commits c t).tally with perf := [] } = { t.tally with perf := [] } := by
  simp only [State.commits]; split <;> rfl

end Sys2Proof.Machine
end

