-- ==== Sys2Proof/Laws/Commands.lean ====
section
/-!
SUPPORT. What the shared operation of every command packet can do (`runCmd`), and what leaving a result changes.
-/

namespace Sys2Proof.Machine

variable {s : State} {c : Cmd} {op : Nat} {act : State → State × Option Ans}

/-- A packet that its opcode's own action meets has that action's effect, its table changes are counted, and it has its result. -/
theorem runCmd_takes (h : s.takes op c = true) :
    runCmd op c s act = match act s with | (t, some a) => (s.commits c t).answer c a | (t, none) => s.commits c t := by
  simp only [State.takes, Bool.and_eq_true, Bool.not_eq_true', Option.isNone_iff_eq_none] at h
  obtain ⟨⟨⟨⟨h1, h0⟩, h2⟩, h3⟩, h4⟩ := h
  rcases ha : act s with ⟨t, _ | a⟩ <;> simp [runCmd, ha, h0, h1, h2, h3, h4]

/-- The action answers, with no table change. -/
theorem runCmd_done {t : State} {a : Ans} (h : s.takes op c = true) (ha : act s = (t, some a))
    (ht : t.tbl.tsn = s.tbl.tsn) : runCmd op c s act = t.answer c a := by
  rw [runCmd_takes h, ha]; simp only [commits_none s c t ht]

/-- The action leaves its reply to a later event. -/
theorem runCmd_late {t : State} (h : s.takes op c = true) (ha : act s = (t, none)) :
    runCmd op c s act = s.commits c t := by rw [runCmd_takes h, ha]

/-- Everything a command packet can do: nothing at all, a result with a status that is not the action's, or its action. -/
theorem runCmd_cases (op : Nat) (c : Cmd) (s : State) (act : State → State × Option Ans) :
    runCmd op c s act = s ∨ (∃ st, runCmd op c s act = s.answer c { status := st }) ∨
    (∃ t a, act s = (t, some a) ∧ runCmd op c s act = (s.commits c t).answer c a) ∨
    (∃ t, act s = (t, none) ∧ runCmd op c s act = s.commits c t) := by
  unfold runCmd
  split
  · exact .inl rfl
  split
  · exact .inl rfl
  split
  · exact .inr (.inl ⟨_, rfl⟩)
  cases s.firstFail op c with
  | some st => exact .inr (.inl ⟨st, rfl⟩)
  | none =>
    by_cases hs : s.targetStopped c = true
    · exact .inr (.inl ⟨stBusy, by simp [hs]⟩)
    · by_cases hu : s.pwr.ready = true ∧ s.unitFault c = true
      · exact .inr (.inl ⟨stHwFault, by simp [hs, hu]⟩)
      · rcases ha : act s with ⟨t, _ | a⟩
        · exact .inr (.inr (.inr ⟨t, rfl, by simp [hs, hu]⟩))
        · exact .inr (.inr (.inl ⟨t, a, rfl, by simp [hs, hu]⟩))

/-- A property of the pair of states that holds of standing still, of leaving a result and of the action holds of the
whole command. -/
theorem runCmd_keeps {R : State → Prop} (h0 : R s) (hr : ∀ t a, R t → R (t.answer c a))
    (hc : ∀ t, R t → R (s.commits c t)) (ha : R (act s).1) :
    R (runCmd op c s act) := by
  rcases runCmd_cases op c s act with h | ⟨st, h⟩ | ⟨t, a, h1, h⟩ | ⟨t, h1, h⟩ <;> rw [h]
  · exact h0
  · exact hr _ _ h0
  · rw [h1] at ha; exact hr _ _ (hc _ ha)
  · rw [h1] at ha; exact hc _ ha

/-- What a result says of its command. -/
theorem replied_answer (s t : State) (c : Cmd) (a : Ans) (h : t.cif.results = s.cif.results) (hl : a.late = false) :
    Replied s (t.answer c a) c a.status a.words := by simp [Replied, h, hl]

/-- Leaving a result changes nothing but the results. -/
theorem answer_changes (s : State) (c : Cmd) (a : Ans) : Changes [.results] s (s.answer c a) := by
  intro p hp; cases p <;> first | rfl | simp at hp

/-- Counting a command's table changes changes nothing but the performance counters. -/
theorem commits_changes (s t : State) (c : Cmd) : Changes [.perf] t (s.commits c t) := by
  intro p hp
  cases p <;> first | (simp at hp; done) | (simp [Part.same]; done)

theorem sameBut_tset {α : Type} [DecidableEq α] (t : Tab α) (k : Nat) (d v : α) : SameBut [k] t (tset t k d v) :=
  fun j hj => tget?_tset t k j d v (by simpa using hj)

theorem sameBut_tins {α : Type} (t : Tab α) (k : Nat) (v : α) : SameBut [k] t (tins t k v) :=
  fun j hj => by rw [tget?_tins, if_neg (by simpa using hj)]

theorem sameBut_tmod {α : Type} (t : Tab α) (k : Nat) (f : α → α) : SameBut [k] t (tmod t k f) :=
  fun j hj => by rw [tget?_tmod, if_neg (by simpa using hj)]

theorem sameBut_refl {α : Type} (ks : List Nat) (t : Tab α) : SameBut ks t t := fun _ _ => rfl

end Sys2Proof.Machine
end

