-- ==== Sys2Proof/Laws/Injections.lean ====
section
/-!
SUPPORT. What the shared operations over injections and the error log can change (R400, R401, R403).
-/

namespace Sys2Proof.Machine

/-- A real error names its injection's detector anew, and changes nothing else. -/
theorem State.eccReal_injections (s : State) (fam : List Nat) (det inst addr : Nat) :
    ∃ l, s.eccReal fam det inst addr = { s with err := { s.err with injections := l } } := by
  unfold State.eccReal
  split
  · exact ⟨s.err.injections, rfl⟩
  · exact ⟨_, rfl⟩

/-- No injection waits for the member: a real error finds the state as it is. -/
theorem State.eccReal_none (s : State) (fam : List Nat) (det inst addr : Nat)
    (h : ∀ j ∈ s.err.injections, j.inst = inst → fam.contains j.det = true → j.due = false) : s.eccReal fam det inst addr = s := by
  unfold State.eccReal
  split
  · rfl
  · next j hj =>
    have hm := List.mem_of_find?_eq_some hj
    have hp := List.find?_some hj
    simp only [Bool.and_eq_true, decide_eq_true_eq] at hp
    simp [h j hm hp.1.1.2 hp.1.1.1] at hp

/-- An access whose words no row tells takes a free value at most. -/
theorem State.unitMeets_state (s : State) (det inst : Nat) :
    (s.unitMeets det inst).1 = s ∨ (s.unitMeets det inst).1 = s.fresh.2 := by
  unfold State.unitMeets
  split
  · exact .inl rfl
  · split
    · exact .inl rfl
    · exact .inr rfl

/-- Where no pattern waits for the member, the access meets none. -/
theorem State.unitMeets_none (s : State) (det inst : Nat)
    (h : ∀ j ∈ s.err.injections, j.det = det → j.inst = inst → j.due = false) : s.unitMeets det inst = (s, none) := by
  unfold State.unitMeets
  split
  · rfl
  · next j hj =>
    have hm := List.mem_of_find?_eq_some hj
    have hp := List.find?_some hj
    simp only [Bool.and_eq_true, decide_eq_true_eq] at hp
    simp [h j hm hp.1.1 hp.1.2] at hp

/-- The record of a mark goes to the error log alone. -/
theorem State.logMark_log (s : State) (m : DetMark) (action discarded : Nat) :
    ∃ l, s.logMark m action discarded = { s with err := { s.err with log := l, logSeq := s.err.logSeq + 1 } } := ⟨_, rfl⟩

/-- The records of the recoveries that a die's reset cuts short change the error log alone. -/
theorem State.logCut_log (s : State) (d : Nat) :
    ∃ l n, s.logCut d = { s with err := { s.err with log := l, logSeq := n } } := by
  unfold State.logCut
  generalize s.dieMarks d = ms
  induction ms generalizing s with
  | nil => exact ⟨s.err.log, s.err.logSeq, rfl⟩
  | cons e es ih =>
    obtain ⟨l, h⟩ := s.logMark_log e.1 0 e.2
    obtain ⟨l', n, h'⟩ := ih (s.logMark e.1 0 e.2)
    exact ⟨l', n, by rw [List.foldl_cons, h', h]⟩

end Sys2Proof.Machine
end

