-- ==== Sys2Proof/Laws/PerInstr.lean ====
section
/-!
SUPPORT. One lemma per command of the block: a row that carries a packet has an opcode of the opcode index (Table 10-13).
-/

namespace Sys2Proof.Laws.OpcodeIndexed

open Sys2Proof Sys2Proof.Machine

/-- The row carries no packet, or its opcode is one of the index. -/
def Statement (i : Instr) : Prop :=
  match rowPacket i with
  | some (op, _) => (opSpec op).isSome = true
  | none => True

theorem identify (c : Cmd) : Statement (.identify c) := by trivial
theorem behaviourArm (c : Cmd) : Statement (.behaviourArm c) := by trivial
theorem behaviourCommit (c : Cmd) : Statement (.behaviourCommit c) := by trivial
theorem behaviourDisarm (c : Cmd) : Statement (.behaviourDisarm c) := by trivial
theorem nop (c : Cmd) : Statement (.nop c) := by trivial
theorem barrier (c : Cmd) : Statement (.barrier c) := by trivial
theorem queueConfig (c : Cmd) : Statement (.queueConfig c) := by trivial
theorem epochStatus (c : Cmd) : Statement (.epochStatus c) := by trivial
theorem activate (c : Cmd) : Statement (.activate c) := by trivial
theorem parishActivate (c : Cmd) : Statement (.parishActivate c) := by trivial
theorem epochAbandon (c : Cmd) : Statement (.epochAbandon c) := by trivial
theorem functionRights (c : Cmd) : Statement (.functionRights c) := by trivial
theorem eventConfig (c : Cmd) : Statement (.eventConfig c) := by trivial
theorem hostRingConfig (c : Cmd) : Statement (.hostRingConfig c) := by trivial
theorem hostCodeMap (c : Cmd) : Statement (.hostCodeMap c) := by trivial
theorem laneConfig (c : Cmd) : Statement (.laneConfig c) := by trivial
theorem laneStatus (c : Cmd) : Statement (.laneStatus c) := by trivial
theorem laneTxEq (c : Cmd) : Statement (.laneTxEq c) := by trivial
theorem laneRxEq (c : Cmd) : Statement (.laneRxEq c) := by trivial
theorem laneFomRead (c : Cmd) : Statement (.laneFomRead c) := by trivial
theorem prbsConfig (c : PrbsCmd) : Statement (.prbsConfig c) := by trivial
theorem prbsRead (c : Cmd) (bits errs : Nat) : Statement (.prbsRead c bits errs) := by trivial
theorem laneRetrain (c : Cmd) : Statement (.laneRetrain c) := by trivial
theorem portConfig (c : Cmd) : Statement (.portConfig c) := by trivial
theorem portDelete (c : Cmd) : Statement (.portDelete c) := by trivial
theorem portStatus (c : Cmd) : Statement (.portStatus c) := by trivial
theorem macStatsRead (c : StatsCmd) : Statement (.macStatsRead c) := by trivial
theorem portFcConfig (c : Cmd) : Statement (.portFcConfig c) := by trivial
theorem portTsCal (c : Cmd) : Statement (.portTsCal c) := by trivial
theorem parserPortConfig (c : Cmd) : Statement (.parserPortConfig c) := by trivial
theorem parseStateWrite (c : Cmd) : Statement (.parseStateWrite c) := by trivial
theorem parseTransWrite (c : Cmd) : Statement (.parseTransWrite c) := by trivial
theorem parseRead (c : Cmd) : Statement (.parseRead c) := by trivial
theorem patternWrite (c : Cmd) : Statement (.patternWrite c) := by trivial
theorem rangeWrite (c : Cmd) : Statement (.rangeWrite c) := by trivial
theorem keyProfileWrite (c : Cmd) : Statement (.keyProfileWrite c) := by trivial
theorem ruleWrite (c : Cmd) : Statement (.ruleWrite c) := by trivial
theorem ruleDelete (c : Cmd) : Statement (.ruleDelete c) := by trivial
theorem ruleRead (c : Cmd) : Statement (.ruleRead c) := by trivial
theorem parserStatsRead (c : Cmd) : Statement (.parserStatsRead c) := by trivial
theorem tblPartition (c : Cmd) : Statement (.tblPartition c) := by trivial
theorem emInsert (c : Cmd) : Statement (.emInsert c) := by trivial
theorem emDelete (c : Cmd) : Statement (.emDelete c) := by trivial
theorem lpmInsert (c : Cmd) : Statement (.lpmInsert c) := by trivial
theorem lpmDelete (c : Cmd) : Statement (.lpmDelete c) := by trivial
theorem tblSearch (c : Cmd) : Statement (.tblSearch c) := by trivial
theorem tblNext (c : Cmd) : Statement (.tblNext c) := by trivial
theorem tblFlush (c : Cmd) : Statement (.tblFlush c) := by trivial
theorem tblObjWrite (c : Cmd) : Statement (.tblObjWrite c) := by trivial
theorem tblObjDelete (c : Cmd) : Statement (.tblObjDelete c) := by trivial
theorem tblObjStatus (c : Cmd) : Statement (.tblObjStatus c) := by trivial
theorem ecmpMemberWrite (c : Cmd) : Statement (.ecmpMemberWrite c) := by trivial
theorem tblPortConfig (c : Cmd) : Statement (.tblPortConfig c) := by trivial
theorem tblGlobalConfig (c : Cmd) : Statement (.tblGlobalConfig c) := by trivial
theorem emKeyProfileWrite (c : Cmd) : Statement (.emKeyProfileWrite c) := by trivial
theorem tblStatus (c : Cmd) : Statement (.tblStatus c) := by trivial
theorem bufRegionConfig (c : Cmd) : Statement (.bufRegionConfig c) := by trivial
theorem bufPortConfig (c : Cmd) : Statement (.bufPortConfig c) := by trivial
theorem bufQueueConfig (c : Cmd) : Statement (.bufQueueConfig c) := by trivial
theorem wredProfileWrite (c : Cmd) : Statement (.wredProfileWrite c) := by trivial
theorem glacierQuotaConfig (c : Cmd) : Statement (.glacierQuotaConfig c) := by trivial
theorem bufRegionStatus (c : Cmd) : Statement (.bufRegionStatus c) := by trivial
theorem queueStatus (c : Cmd) : Statement (.queueStatus c) := by trivial
theorem bufGlacierStatus (c : Cmd) : Statement (.bufGlacierStatus c) := by trivial
theorem schedPortConfig (c : Cmd) : Statement (.schedPortConfig c) := by trivial
theorem schedQueueConfig (c : Cmd) : Statement (.schedQueueConfig c) := by trivial
theorem gateListWrite (c : Cmd) : Statement (.gateListWrite c) := by trivial
theorem gateListRead (c : Cmd) : Statement (.gateListRead c) := by trivial
theorem gateActivate (c : Cmd) : Statement (.gateActivate c) := by trivial
theorem gateCancel (c : Cmd) : Statement (.gateCancel c) := by trivial
theorem gateStatus (c : Cmd) : Statement (.gateStatus c) := by trivial
theorem meterConfig (c : Cmd) : Statement (.meterConfig c) := by trivial
theorem meterRead (c : Cmd) : Statement (.meterRead c) := by trivial
theorem schedQueueStatus (c : Cmd) : Statement (.schedQueueStatus c) := by trivial
theorem timeStatus (c : Cmd) : Statement (.timeStatus c) := by trivial
theorem bellConfig (c : Cmd) : Statement (.bellConfig c) := by trivial
theorem timeSourceConfig (c : Cmd) : Statement (.timeSourceConfig c) := by trivial
theorem timeAdjustStep (c : Cmd) : Statement (.timeAdjustStep c) := by trivial
theorem timeAdjustSlew (c : Cmd) : Statement (.timeAdjustSlew c) := by trivial
theorem timeAdjustFreq (c : Cmd) : Statement (.timeAdjustFreq c) := by trivial
theorem timeAdjustSet (c : Cmd) : Statement (.timeAdjustSet c) := by trivial
theorem timePpsLabel (c : Cmd) : Statement (.timePpsLabel c) := by trivial
theorem tallyConfig (c : Cmd) : Statement (.tallyConfig c) := by trivial
theorem dumpRingConfig (c : Cmd) : Statement (.dumpRingConfig c) := by trivial
theorem tallyPortRead (c : Cmd) : Statement (.tallyPortRead c) := by trivial
theorem pcConfig (c : Cmd) : Statement (.pcConfig c) := by trivial
theorem pcRead (c : Cmd) : Statement (.pcRead c) := by trivial
theorem rateConfig (c : Cmd) : Statement (.rateConfig c) := by trivial
theorem rateRead (c : Cmd) : Statement (.rateRead c) := by trivial
theorem sampleConfig (c : Cmd) : Statement (.sampleConfig c) := by trivial
theorem mirrorConfig (c : Cmd) : Statement (.mirrorConfig c) := by trivial
theorem errStatus (c : Cmd) : Statement (.errStatus c) := by trivial
theorem errInjectCancel (c : Cmd) : Statement (.errInjectCancel c) := by trivial
theorem errInjectOnce (c : Cmd) : Statement (.errInjectOnce c) := by trivial
theorem errInjectPeriodic (c : Cmd) : Statement (.errInjectPeriodic c) := by trivial
theorem errInjectArmed (c : Cmd) : Statement (.errInjectArmed c) := by trivial
theorem errConfig (c : Cmd) : Statement (.errConfig c) := by trivial
theorem errLogRead (c : Cmd) : Statement (.errLogRead c) := by trivial
theorem stewardStatus (c : Cmd) : Statement (.stewardStatus c) := by trivial
theorem microcodeLoadBegin (c : Cmd) : Statement (.microcodeLoadBegin c) := by trivial
theorem microcodeLoadData (c : Cmd) : Statement (.microcodeLoadData c) := by trivial
theorem microcodeLoadEnd (c : Cmd) : Statement (.microcodeLoadEnd c) := by trivial
theorem microcodeLoadFromSlot (c : Cmd) : Statement (.microcodeLoadFromSlot c) := by trivial
theorem stewardPatch (c : Cmd) : Statement (.stewardPatch c) := by trivial
theorem stewardTraceRead (c : Cmd) : Statement (.stewardTraceRead c) := by trivial
theorem parishConfig (c : Cmd) : Statement (.parishConfig c) := by trivial
theorem parishStatus (c : Cmd) : Statement (.parishStatus c) := by trivial
theorem relayConfig (c : Cmd) : Statement (.relayConfig c) := by trivial
theorem protectGroupWrite (c : Cmd) : Statement (.protectGroupWrite c) := by trivial
theorem watchSlotWrite (c : Cmd) : Statement (.watchSlotWrite c) := by trivial
theorem parishMemberRead (c : Cmd) : Statement (.parishMemberRead c) := by trivial
theorem powerStatus (c : Cmd) : Statement (.powerStatus c) := by trivial
theorem thermalConfig (c : Cmd) : Statement (.thermalConfig c) := by trivial
theorem clockStatus (c : Cmd) : Statement (.clockStatus c) := by trivial
theorem keepRunning (c : Cmd) : Statement (.keepRunning c) := by trivial
theorem allowStop (c : Cmd) : Statement (.allowStop c) := by trivial
theorem dieHold (c : Cmd) : Statement (.dieHold c) := by trivial
theorem dieRelease (c : Cmd) : Statement (.dieRelease c) := by trivial
theorem avsConfig (c : Cmd) : Statement (.avsConfig c) := by trivial
theorem journalRead (c : Cmd) : Statement (.journalRead c) := by trivial
theorem journalAppend (c : Cmd) : Statement (.journalAppend c) := by trivial
theorem imageWriteBegin (c : Cmd) : Statement (.imageWriteBegin c) := by trivial
theorem imageWriteData (c : Cmd) : Statement (.imageWriteData c) := by trivial
theorem imageWriteFinish (c : Cmd) : Statement (.imageWriteFinish c) := by trivial
theorem imageSelect (c : Cmd) : Statement (.imageSelect c) := by trivial
theorem imageStatus (c : Cmd) : Statement (.imageStatus c) := by trivial
theorem cmdDoorbell (fn q : Nat) (producer : BitVec 64) : Statement (.cmdDoorbell fn q producer) := by trivial
theorem hostTxDoorbell (fn : Nat) (producer : BitVec 64) : Statement (.hostTxDoorbell fn producer) := by trivial
theorem adminCmdEnable (fn : Nat) (value : BitVec 64) : Statement (.adminCmdEnable fn value) := by trivial
theorem registerWrite (bus : RegBus) (offset : Nat) (value : BitVec 64) : Statement (.registerWrite bus offset value) := by trivial
theorem cmdFifo (data : BoxWrite) : Statement (.cmdFifo data) := by trivial
theorem rplFifo : Statement (.rplFifo) := by trivial
theorem evtFifo : Statement (.evtFifo) := by trivial
theorem resync (value : Word) : Statement (.resync value) := by trivial
theorem go (value : Word) : Statement (.go value) := by trivial
theorem commandFetch (fn q : Nat) (bytes : List Byte) : Statement (.commandFetch fn q bytes) := by trivial
theorem mailboxCommandTake : Statement (.mailboxCommandTake) := by trivial
theorem commandDispatch (src : Sender) (q : Nat) : Statement (.commandDispatch src q) := by trivial
theorem commandComplete (src : Sender) (q : Nat) (tag : BitVec 12) : Statement (.commandComplete src q tag) := by trivial
theorem atBeatBoundary (src : Sender) (q : Nat) (tag : BitVec 12) : Statement (.atBeatBoundary src q tag) := by trivial
theorem replyWrite (src : Sender) (q : Nat) (room : Room) : Statement (.replyWrite src q room) := by trivial
theorem eventDelivery (source dest : Nat) (room : Room) : Statement (.eventDelivery source dest room) := by trivial
theorem hostTxDescriptor (fn : Nat) (desc : List Word) (data : List Byte) : Statement (.hostTxDescriptor fn desc data) := by trivial
theorem signalDetected (port : Nat) : Statement (.signalDetected port) := by trivial
theorem negotiationResolved (port : Nat) (partner : BitVec 5) : Statement (.negotiationResolved port partner) := by trivial
theorem negTimeout (port : Nat) : Statement (.negTimeout port) := by trivial
theorem trainingDone (port : Nat) (inverted : List Bool) : Statement (.trainingDone port inverted) := by trivial
theorem trainTimeout (port : Nat) : Statement (.trainTimeout port) := by trivial
theorem alignLock (port : Nat) (logical : List Nat) (skewNs : Nat) (delaysPs : List Nat) (inverted : List Bool) : Statement (.alignLock port logical skewNs delaysPs inverted) := by trivial
theorem alignTimeout (port : Nat) : Statement (.alignTimeout port) := by trivial
theorem signalLost (lane : Nat) (lock : Bool) : Statement (.signalLost lane lock) := by trivial
theorem fomWindowEnd (lane : Nat) (window : FomWindow) (eq : RxEq) : Statement (.fomWindowEnd lane window eq) := by trivial
theorem rxFrameStart (port : Nat) : Statement (.rxFrameStart port) := by trivial
theorem rxFrameEnd (port len : Nat) (data : List Byte) (check : FrameCheck) : Statement (.rxFrameEnd port len data check) := by trivial
theorem pauseTimerExpiry (port prio : Nat) : Statement (.pauseTimerExpiry port prio) := by trivial
theorem pauseWdFired (port prio : Nat) : Statement (.pauseWdFired port prio) := by trivial
theorem pauseWdEnded (port prio : Nat) : Statement (.pauseWdEnded port prio) := by trivial
theorem xoffRefresh (port prio : Nat) : Statement (.xoffRefresh port prio) := by trivial
theorem parseStart (pkt : Nat) (present : List Byte) : Statement (.parseStart pkt present) := by trivial
theorem admission (region : Nat) (pkts : List Nat) : Statement (.admission region pkts) := by trivial
theorem refillRequest (region : Nat) (queues : List Nat) : Statement (.refillRequest region queues) := by trivial
theorem refillDataArrived (queue : Nat) (read : BlockRead) : Statement (.refillDataArrived queue read) := by trivial
theorem pointerFetchDone (die pool : Nat) : Statement (.pointerFetchDone die pool) := by trivial
theorem pointerWritebackDone (die pool : Nat) : Statement (.pointerWritebackDone die pool) := by trivial
theorem txSelect (port : Nat) : Statement (.txSelect port) := by trivial
theorem txUnderrun (port sent : Nat) : Statement (.txUnderrun port sent) := by trivial
theorem txFrameEnd (port : Nat) : Statement (.txFrameEnd port) := by trivial
theorem portDrainStep (port : Nat) : Statement (.portDrainStep port) := by trivial
theorem shaperTick : Statement (.shaperTick) := by trivial
theorem meterTick : Statement (.meterTick) := by trivial
theorem gateEntryChange (port : Nat) : Statement (.gateEntryChange port) := by trivial
theorem gateTakeover (port : Nat) : Statement (.gateTakeover port) := by trivial
theorem queueSample (port : Nat) : Statement (.queueSample port) := by trivial
theorem beatBoundary : Statement (.beatBoundary) := by trivial
theorem tallyBankClose : Statement (.tallyBankClose) := by trivial
theorem conservationCheck : Statement (.conservationCheck) := by trivial
theorem dumpUnitWrite (stream : Nat) (consumer : BitVec 64) : Statement (.dumpUnitWrite stream consumer) := by trivial
theorem ageSweepVisit (loc : Word) : Statement (.ageSweepVisit loc) := by trivial
theorem learnInsert (region : Nat) : Statement (.learnInsert region) := by trivial
theorem stashMove (table idx : Nat) : Statement (.stashMove table idx) := by trivial
theorem shadowRewriteDone (family idx : Nat) : Statement (.shadowRewriteDone family idx) := by trivial
theorem epochCleanupDone (epoch : BitVec 16) : Statement (.epochCleanupDone epoch) := by trivial
theorem flushDone (port : Nat) : Statement (.flushDone port) := by trivial
theorem objectFreed (kind id : Nat) : Statement (.objectFreed kind id) := by trivial
theorem copyRebuildDone (region : Nat) : Statement (.copyRebuildDone region) := by trivial
theorem bellRateChange : Statement (.bellRateChange) := by trivial
theorem ppsEdge (captured : Nat) : Statement (.ppsEdge captured) := by trivial
theorem ref10mWindow (freq : Int) : Statement (.ref10mWindow freq) := by trivial
theorem sourceTimeout : Statement (.sourceTimeout) := by trivial
theorem powerOnSecond : Statement (.powerOnSecond) := by trivial
theorem powerOnSave : Statement (.powerOnSave) := by trivial
theorem microTrap (engine cause : Nat) : Statement (.microTrap engine cause) := by trivial
theorem patchLoad (region : Nat) : Statement (.patchLoad region) := by trivial
theorem patchVerify (region : Nat) (same : Bool) : Statement (.patchVerify region same) := by trivial
theorem patchDone (region : Nat) : Statement (.patchDone region) := by trivial
theorem patchFailed (region : Nat) : Statement (.patchFailed region) := by trivial
theorem granaryUe (region bank sub row : Nat) (cellOk : Bool) : Statement (.granaryUe region bank sub row cellOk) := by trivial
theorem granaryScrub (region : Nat) (corrected : List Nat) (ues : List (Nat × Bool)) : Statement (.granaryScrub region corrected ues) := by trivial
theorem tableScrub (region : Nat) (corrected : Nat) (ue : Option Word) : Statement (.tableScrub region corrected ue) := by trivial
theorem tableUe (region : Nat) (addr : Word) (pkt : Option Nat) : Statement (.tableUe region addr pkt) := by trivial
theorem clusterRecovery (cluster : Nat) (egress parity : Bool) : Statement (.clusterRecovery cluster egress parity) := by trivial
theorem fenceLift (cluster : Nat) (egress : Bool) : Statement (.fenceLift cluster egress) := by trivial
theorem regionStateUe (region : Nat) (word : RegionWord) : Statement (.regionStateUe region word) := by trivial
theorem glacierDescUe (queue keep : Nat) : Statement (.glacierDescUe queue keep) := by trivial
theorem poolAuditDone (die : Nat) : Statement (.poolAuditDone die) := by trivial
theorem glacierStackFail (stack : Nat) : Statement (.glacierStackFail stack) := by trivial
theorem d2dCrc (flit : BadFlit) : Statement (.d2dCrc flit) := by trivial
theorem d2dWire (channel wire : Nat) : Statement (.d2dWire channel wire) := by trivial
theorem d2dLinkDown (dir : Nat) : Statement (.d2dLinkDown dir) := by trivial
theorem d2dRetrain (healthy : List Nat) : Statement (.d2dRetrain healthy) := by trivial
theorem fecDegradeWindow (port beyond : Nat) (errs : List Nat) : Statement (.fecDegradeWindow port beyond errs) := by trivial
theorem linkFault (port : Nat) : Statement (.linkFault port) := by trivial
theorem stewardWatchdog (engine : Nat) : Statement (.stewardWatchdog engine) := by trivial
theorem clockLoss (domain : Nat) : Statement (.clockLoss domain) := by trivial
theorem referenceLossTimeout : Statement (.referenceLossTimeout) := by trivial
theorem thermalWarn (sensor : Nat) (reading : Int) : Statement (.thermalWarn sensor reading) := by trivial
theorem thermalTrip (sensor : Nat) (reading : Int) : Statement (.thermalTrip sensor reading) := by trivial
theorem voltageOor (rail mv : Nat) : Statement (.voltageOor rail mv) := by trivial
theorem cmdBufUe (src : Sender) (q : Nat) (tag : BitVec 12) : Statement (.cmdBufUe src q tag) := by trivial
theorem injectionPeriod (detector inst : Nat) : Statement (.injectionPeriod detector inst) := by trivial
theorem riwenCommand (h : Riwen) (bytes : List Byte) : Statement (.riwenCommand h bytes) := by trivial
theorem riwenReply (h : Riwen) (bytes : List Byte) : Statement (.riwenReply h bytes) := by trivial
theorem riwenEvent (h : Riwen) (bytes : List Byte) : Statement (.riwenEvent h bytes) := by trivial
theorem bell (h : Riwen) (b : BellPayload) (rxNs : Nat) : Statement (.bell h b rxNs) := by trivial
theorem delayReq (h : Riwen) (seq : BitVec 16) (rxNs : Nat) : Statement (.delayReq h seq rxNs) := by trivial
theorem delayResp (h : Riwen) (seq : BitVec 16) (t1 t2 t3 t4 : Nat) : Statement (.delayResp h seq t1 t2 t3 t4) := by trivial
theorem hello (h : Riwen) (segment : Nat) (managerSeen : Bool) (bitmap : List Byte) : Statement (.hello h segment managerSeen bitmap) := by trivial
theorem prepare (h : Riwen) (epoch : BitVec 16) (deadline : BitVec 48) : Statement (.prepare h epoch deadline) := by trivial
theorem vote (h : Riwen) (epoch : BitVec 16) (segment : Nat) (refused : Bool) (bitmap : List Byte) : Statement (.vote h epoch segment refused bitmap) := by trivial
theorem commit (h : Riwen) (epoch : BitVec 16) (thaw : BitVec 48) : Statement (.commit h epoch thaw) := by trivial
theorem commitAck (h : Riwen) (epoch : BitVec 16) : Statement (.commitAck h epoch) := by trivial
theorem abort (h : Riwen) (epoch : BitVec 16) (cause : Nat) : Statement (.abort h epoch cause) := by trivial
theorem linkAlarm (h : Riwen) (originDev originPort : Nat) (down : Bool) (cause : Nat) (seq : BitVec 16) (hops : Nat) : Statement (.linkAlarm h originDev originPort down cause seq hops) := by trivial
theorem tallySummary (h : Riwen) (bytes : List Byte) : Statement (.tallySummary h bytes) := by trivial
theorem voteDeadline : Statement (.voteDeadline) := by trivial
theorem activationDeadline : Statement (.activationDeadline) := by trivial
theorem standbyAckTimeout : Statement (.standbyAckTimeout) := by trivial
theorem commandResend (ftag : Nat) : Statement (.commandResend ftag) := by trivial
theorem managerLost : Statement (.managerLost) := by trivial
theorem standbyTakeover : Statement (.standbyTakeover) := by trivial
theorem alarmRepeat (port : Nat) : Statement (.alarmRepeat port) := by trivial
theorem remoteDownExpiry (port : Nat) : Statement (.remoteDownExpiry port) := by trivial
theorem wtrExpiry (group : Nat) : Statement (.wtrExpiry group) := by trivial
theorem vauxApplied : Statement (.vauxApplied) := by trivial
theorem vauxRemoved : Statement (.vauxRemoved) := by trivial
theorem coreRailsInRange (bootMode : BitVec 2) : Statement (.coreRailsInRange bootMode) := by trivial
theorem resetN : Statement (.resetN) := by trivial
theorem resetHoldEnd : Statement (.resetHoldEnd) := by trivial
theorem perstN : Statement (.perstN) := by trivial
theorem functionLevelReset (fn : Nat) : Statement (.functionLevelReset fn) := by trivial
theorem stageClocksDone (primary standby : List Bool) : Statement (.stageClocksDone primary standby) := by trivial
theorem stageCentralDone : Statement (.stageCentralDone) := by trivial
theorem stageRegionsDone : Statement (.stageRegionsDone) := by trivial
theorem stageGlacierDone (trained : List Bool) : Statement (.stageGlacierDone trained) := by trivial
theorem stageD2dDone (channels : List Bool) : Statement (.stageD2dDone channels) := by trivial
theorem stageLanesDone (chiplets : List Bool) : Statement (.stageLanesDone chiplets) := by trivial
theorem imageRestartTimer : Statement (.imageRestartTimer) := by trivial
theorem dieReady (trained : DieTraining) : Statement (.dieReady trained) := by trivial
theorem avsStep (want : Nat) : Statement (.avsStep want) := by trivial
theorem clockWake (branch : ClockBranch) : Statement (.clockWake branch) := by trivial
theorem branchStop : Statement (.branchStop) := by trivial
theorem prbsCheckerLock (lane : Nat) : Statement (.prbsCheckerLock lane) := by trivial
theorem prbsLockLost (lane : Nat) (bits errs : Nat) : Statement (.prbsLockLost lane bits errs) := by trivial
theorem coefficientRequest (lane : Nat) (post up : Bool) : Statement (.coefficientRequest lane post up) := by trivial
theorem hostReceiveWrite (fn : Nat) (consumer : BitVec 64) : Statement (.hostReceiveWrite fn consumer) := by trivial
theorem slotEraseDone (slot : Nat) : Statement (.slotEraseDone slot) := by trivial
theorem referenceRestored : Statement (.referenceRestored) := by trivial
theorem pcieLinkUp : Statement (.pcieLinkUp) := by trivial
theorem allocatorCountRecomputed (region : Nat) : Statement (.allocatorCountRecomputed region) := by trivial

end Sys2Proof.Laws.OpcodeIndexed
end

