-- ==== Sys2Proof/Machine/Flags.lean ====
section
/-!
DEFINITION. The flags and registers that only tell: what a read of the management bus (Table 10-7), of BAR0 (Table 10-6) and of
BAR2 (Table 14-5) returns, and the SMB_ALERT# pin. A read of these changes nothing, so no row is one.
-/

namespace Sys2Proof.Machine

/-! ### Mailboxes (R340 to R342) -/

/-- EMPTY: the two pointers are equal. -/
def Mailbox.isEmpty (m : Mailbox) : Bool := decide (m.wptr = m.rptr)

/-- FULL: the low 8 bits are equal and bit 8 differs. -/
def Mailbox.isFull (m : Mailbox) : Bool :=
  decide (m.wptr.extractLsb' 0 8 = m.rptr.extractLsb' 0 8) && (m.wptr.getLsbD 8 != m.rptr.getLsbD 8)

/-- The mailbox asks for attention: LEVEL_HIT with its INT_ENABLE bit. -/
def Mailbox.alerts (m : Mailbox) : Bool := m.levelHit && m.intEn

/-- SMB_ALERT# is driven low. -/
def State.smbAlert (s : State) : Bool := s.aon.vaux && (s.aon.cmdBox.alerts || s.aon.rplBox.alerts || s.aon.evtBox.alerts)

/-- The five status bits of a mailbox. -/
def Mailbox.status (m : Mailbox) : Nat :=
  b2n m.isEmpty + 2 * b2n m.isFull + 4 * b2n m.underrun + 8 * b2n m.overrun + 16 * b2n m.levelHit

/-- The management bus registers; a reserved code reads as 0. -/
def State.mgmtReg (s : State) (code : Nat) : Word :=
  let a := s.aon
  match code with
  | 0x10 =>
    pack [(0, a.cmdBox.status), (8, a.rplBox.status), (16, a.evtBox.status), (24, b2n a.discarding), (25, b2n s.pwr.ready)]
  | 0x11 => pack [(0, a.cmdBox.fill), (9, a.rplBox.fill), (18, a.evtBox.fill)]
  | 0x12 => pack [(0, a.cmdBox.level.toNat), (9, a.rplBox.level.toNat), (18, a.evtBox.level.toNat)]
  | 0x13 => pack [(0, b2n a.cmdBox.intEn), (1, b2n a.rplBox.intEn), (2, b2n a.evtBox.intEn)]
  | _ => 0

/-! ### JTAG (R462) -/

/-- The instructions of the JTAG port. -/
inductive JtagInstr where
  | extest
  | idcode
  | samplePreload
  | traceRead
  | bypass
  deriving DecidableEq, Repr

/-- What a code of the 8-bit instruction register is. (DEDUCED: log entry 200.) -/
def jtagInstr (ir : BitVec 8) : JtagInstr :=
  match ir.toNat with
  | 0x00 => .extest
  | 0x01 => .idcode
  | 0x02 => .samplePreload
  | 0x3A => .traceRead
  | _ => .bypass

/-- The data register that the instruction in force selects, where the spec says what it holds: IDCODE's word, one bit of 0 for BYPASS, and
the trace of an engine for the trace read. The boundary cells of EXTEST and SAMPLE/PRELOAD are the pins, which the model does not hold. -/
def State.jtagData (s : State) (engine : Nat) : List Word :=
  match jtagInstr s.aon.jtagIr with
  | .idcode => [idcode]
  | .traceRead => (s.engine engine).trace.flatMap TraceEnt.words
  | .bypass => [0]
  | _ => []

/-! ### PCIe (Tables 10-6 and 14-5) -/

/-- QUEUE_STOPPED: a command queue of the function is stopped (R337), or an ADMIN write broke a constraint. -/
def Func.queueStopped (f : Func) : Bool := f.regStopped || f.cmdRings.any fun (e : Nat × CRing) => e.2.stopped

/-- The registers of BAR0; an offset that is not listed reads as 0. -/
def State.bar0Reg (s : State) (fn offset : Nat) : BitVec 64 :=
  let f := s.func fn
  if offset < 0x80 ∧ offset % 8 = 0 then tget f.doorbells (offset / 8) 0
  else
    match offset with
    | 0x0080 => f.hostDoorbell
    | 0x0100 => f.adminCmdBase
    | 0x0108 => f.adminCmdCtrl
    | 0x0110 => BitVec.ofNat 64 (b2n f.adminCmdEn + 2 * f.adminCmdSize.toNat)
    | 0x0118 => f.adminRplBase
    | 0x0120 => f.adminRplCtrl
    | 0x0128 => BitVec.ofNat 64 (b2n f.adminRplEn + 2 * f.adminRplSize.toNat)
    | 0x0130 => BitVec.ofNat 64 (b2n (s.pwr.ready && s.cif.pcieUp) + 2 * s.privilege (.pcie fn) + 8 * b2n f.queueStopped)
    | _ => 0

/-- BAR2 of function 0: the images written, and the boot registers; 0 outside stages 3 to 7 and BOOT_FAILED. -/
def State.bar2Reg (s : State) (offset : Nat) : Word :=
  let a := s.aon
  if s.bootWindow = false then 0
  else if offset = 0xFFF08 then pack [(0, a.bootState.toNat), (2, a.bootCause.toNat), (6, b2n a.bootRegion)]
  else if 0xFFF00 ≤ offset then 0
  else word (natOfBytes ((List.range 4).map fun i => tget a.bar2 (offset + i) 0))

end Sys2Proof.Machine
end

