-- ==== Sys2Proof/Tests/Slice0.lean ====
section
/-!
SUPPORT. Tests of the model's own author: ill-formed commands are refused, and for every statement inputs that meet its hypotheses.
-/

namespace Sys2Proof.Tests

open Sys2Proof Sys2Proof.Machine

set_option Elab.async false
set_option linter.unusedVariables false

/-- The level and the unit of a packet whose target is found in its words. -/
def aim (t : Target) (ws : List Word) : Nat × Nat :=
  let x := wd ws 0
  match t with
  | .block => (4, fld x 0 10 / 8)
  | .regionOfPort => (2, fld x 0 10 / 256)
  | .regionOfQueue => (2, fld x 0 14 / 4096)
  | .regionField => (2, fld x 0 2)
  | .regionMask => (2, if bit x 16 then 0 else if bit x 17 then 1 else if bit x 18 then 2 else 3)
  | .regionOfDie => (2, 2 * fld x 0 1)
  | .steward => (5, 1)
  | .stewardCentral => (5, 0)
  | _ => (0, 0)

def w (n : Nat) : Word := BitVec.ofNat 32 n

/-- A packet of the management bus with an opcode and parameter words. -/
def pk (op : Nat) (ns : List Nat) : Cmd :=
  let ws := ns.map (BitVec.ofNat 32)
  let a := match opSpec op with | some sp => aim sp.target ws | none => (0, 0)
  { src := .mgmt, version := 1, unordered := false, strictTime := false, atBeat := false, noReply := false, checkCrc := true,
    flagsRsv := 0, opcode := BitVec.ofNat 16 op, tag := 5, queue := 0, paramWords := BitVec.ofNat 16 ws.length, device := 0,
    level := BitVec.ofNat 3 a.1, unit := BitVec.ofNat 15 a.2, low := 0x1234, crcOk := true, words := ws }

/-- A device that has reached READY. -/
def ready : State :=
  { State.reset with
    aon := { vaux := true, stage := 8 }
    pwr := { ready := true, mclkOn := true }
    cif := { pcieUp := true }
    stw := { engines := (List.range 5).map fun e => (e, { state := .running }) } }

/-- s with a port. -/
def withPort (s : State) (p : Nat) (v : Port) : State := s.setPort p v

def up1 : Port := { adminUp := true, state := .up, rate := 4 }
def down1 : Port := {}
def p8 : State := withPort ready 8 down1
def p8u : State := withPort ready 8 up1

/-- s after the commands of l. -/
def runAll (s : State) (l : List Instr) : State :=
  l.foldl (fun s i => match exec i s with | .next t => t | _ => s) s

/-- s without results. -/
def noRes (s : State) : State := { s with cif := { s.cif with results := [] } }

/-- The state that an outcome goes on in. -/
def nextOf (o : Host.Outcome State Fault Refusal) : Option State :=
  match o with
  | .next t => some t
  | _ => none

/-- The value of a result that is no error. -/
def okOf (ε α : Type) (x : Except ε α) : Option α :=
  match x with
  | .ok v => some v
  | _ => none

/-! ### Well-formed commands -/

def good : Cmd := pk 0x0103 []
/-- One parameter word too few, and one more than R331 allows. -/
def short : Cmd := { good with paramWords := 1 }
def long : Cmd := { good with paramWords := 1021, words := List.replicate 1021 0 }
def eqGood : RxEq := { ctle := 0, dfe1 := 0, ffe := List.replicate 32 0 }
def rGood : Riwen :=
  { port := 1023, version := 1, payloadLen := 4100, lenOk := true, parishId := 0, srcDevice := 0, dstDevice := 0, all := false,
    managerGen := 0, bellGen := 0, depth := 0 }
def bell : BellPayload :=
  { txNs := 0, txFrac := 0, beats := 0, holdover := false, masterId := 0, actEpoch := 0, actPhase := 0, actBeat := 0 }

theorem test_wf_refuses_0 : ([
  .identify short, .behaviourArm short, .behaviourCommit short, .behaviourDisarm short, .nop short, .nop long,
  .nop ({ good with src := .pcie 16 }), .nop ({ good with src := .inband 16385 }), .barrier short, .queueConfig short,
  .epochStatus short, .activate short, .parishActivate short, .epochAbandon short, .functionRights short,
  .eventConfig short, .hostRingConfig short, .hostCodeMap short, .laneConfig short, .laneStatus short,
  .laneTxEq short, .laneRxEq short, .laneFomRead short, .prbsConfig ⟨short, 0, 0⟩, .prbsRead short 0 0, .laneRetrain short,
  .portConfig short, .portDelete short, .portStatus short, .macStatsRead ⟨short, 0⟩] : List Instr).all (fun i => !i.wf) = true := by decide +kernel

theorem test_wf_refuses_1 : ([
  .portFcConfig short, .portTsCal short, .parserPortConfig short, .parseStateWrite short, .parseTransWrite short,
  .parseRead short, .patternWrite short, .rangeWrite short, .keyProfileWrite short, .ruleWrite short,
  .ruleDelete short, .ruleRead short, .parserStatsRead short, .tblPartition short, .emInsert short, .emDelete short,
  .lpmInsert short, .lpmDelete short, .tblSearch short, .tblNext short, .tblFlush short, .tblObjWrite short,
  .tblObjDelete short, .tblObjStatus short, .ecmpMemberWrite short, .tblPortConfig short, .tblGlobalConfig short,
  .emKeyProfileWrite short, .tblStatus short, .bufRegionConfig short] : List Instr).all (fun i => !i.wf) = true := by decide +kernel

theorem test_wf_refuses_2 : ([
  .bufPortConfig short, .bufQueueConfig short, .wredProfileWrite short, .glacierQuotaConfig short,
  .bufRegionStatus short, .queueStatus short, .bufGlacierStatus short, .schedPortConfig short,
  .schedQueueConfig short, .gateListWrite short, .gateListRead short, .gateActivate short, .gateCancel short,
  .gateStatus short, .meterConfig short, .meterRead short, .schedQueueStatus short, .timeStatus short,
  .bellConfig short, .timeSourceConfig short, .timeAdjustStep short, .timeAdjustSlew short, .timeAdjustFreq short,
  .timeAdjustSet short, .timePpsLabel short, .tallyConfig short, .dumpRingConfig short, .tallyPortRead short,
  .pcConfig short, .pcRead short] : List Instr).all (fun i => !i.wf) = true := by decide +kernel

theorem test_wf_refuses_3 : ([
  .rateConfig short, .rateRead short, .sampleConfig short, .mirrorConfig short, .errStatus short,
  .errInjectCancel short, .errInjectOnce short, .errInjectPeriodic short, .errInjectArmed short, .errConfig short,
  .errLogRead short, .stewardStatus short, .microcodeLoadBegin short, .microcodeLoadData short,
  .microcodeLoadEnd short, .microcodeLoadFromSlot short, .stewardPatch short, .stewardTraceRead short,
  .parishConfig short, .parishStatus short, .relayConfig short, .protectGroupWrite short, .watchSlotWrite short,
  .parishMemberRead short, .powerStatus short, .thermalConfig short, .clockStatus short, .keepRunning short,
  .allowStop short, .dieHold short] : List Instr).all (fun i => !i.wf) = true := by decide +kernel

theorem test_wf_refuses_4 : ([
  .dieRelease short, .avsConfig short, .journalRead short, .journalAppend short, .imageWriteBegin short,
  .imageWriteData short, .imageWriteFinish short, .imageSelect short, .imageStatus short, .cmdDoorbell 16 0 0,
  .cmdDoorbell 0 16 0, .hostTxDoorbell 16 0, .adminCmdEnable 16 0, .registerWrite (.bar0 16) 0 0,
  .cmdFifo ⟨List.replicate 63 0, false⟩, .commandFetch 16 0 [], .commandFetch 0 16 [], .commandDispatch (.pcie 16) 0,
  .commandDispatch .mgmt 16, .commandComplete (.pcie 16) 0 0, .commandComplete .mgmt 16 0,
  .atBeatBoundary (.pcie 16) 0 0, .atBeatBoundary .mgmt 16 0, .replyWrite (.pcie 16) 0 ⟨0, false⟩, .replyWrite .mgmt 16 ⟨0, false⟩,
  .eventDelivery 5 0 ⟨0, false⟩, .eventDelivery 0 18 ⟨0, false⟩, .hostTxDescriptor 16 (List.replicate 8 0) [],
  .hostTxDescriptor 0 (List.replicate 7 0) [], .signalDetected 1024] : List Instr).all (fun i => !i.wf) = true := by decide +kernel

theorem test_wf_refuses_5 : ([
  .negotiationResolved 1024 0, .negTimeout 1024, .trainingDone 1024 [], .trainTimeout 1024,
  .alignLock 1024 [] 0 [] [], .alignTimeout 1024, .signalLost 1024 false,
  .fomWindowEnd 0 ⟨0, false, false⟩ ({ eqGood with ffe := [] }), .fomWindowEnd 1024 ⟨0, false, false⟩ eqGood, .rxFrameStart 1024,
  .rxFrameEnd 1024 0 [] ⟨false, 0⟩, .pauseTimerExpiry 1024 0, .pauseTimerExpiry 0 8, .pauseWdFired 1024 0,
  .pauseWdFired 0 8, .pauseWdEnded 1024 0, .pauseWdEnded 0 8, .xoffRefresh 1024 0, .xoffRefresh 0 8, .admission 4 [],
  .refillRequest 4 [], .refillRequest 0 [3, 16384], .refillDataArrived 16384 .clean, .pointerFetchDone 2 0,
  .pointerFetchDone 0 4, .pointerWritebackDone 2 0, .pointerWritebackDone 0 4, .txSelect 1024, .txUnderrun 1024 0,
  .txFrameEnd 1024] : List Instr).all (fun i => !i.wf) = true := by decide +kernel

theorem test_wf_refuses_6 : ([
  .portDrainStep 1024, .gateEntryChange 1024, .gateTakeover 1024, .queueSample 1024, .dumpUnitWrite 6 0,
  .learnInsert 4, .stashMove 3 0, .stashMove 0 16384, .stashMove 1 4096, .shadowRewriteDone 2 0,
  .shadowRewriteDone 0 64, .flushDone 1024, .objectFreed 3 0, .objectFreed 0 131072, .objectFreed 1 4096,
  .objectFreed 2 16384, .copyRebuildDone 4, .microTrap 5 1, .microTrap 0 0, .microTrap 0 5, .patchLoad 4,
  .patchVerify 4 false, .patchDone 4, .patchFailed 4, .granaryUe 4 0 0 0 false, .granaryUe 0 64 0 0 false, .granaryUe 0 0 4 0 false,
  .granaryUe 0 0 0 1280 false,
  .granaryScrub 4 [] [], .granaryScrub 0 [327680] [],
  .granaryScrub 0 [] [(327680, false)]] : List Instr).all (fun i => !i.wf) = true := by decide +kernel

theorem test_wf_refuses_7 : ([
  .tableScrub 4 0 none, .tableUe 4 0 none, .clusterRecovery 16 false false, .fenceLift 16 false,
  .regionStateUe 0 (.meter 65536), .regionStateUe 0 (.queueShaper 16384), .regionStateUe 0 (.portShaper 1024),
  .regionStateUe 0 (.headTag 16384), .regionStateUe 0 (.virtualTime 1024 false), .regionStateUe 0 (.queueShaper 4096),
  .regionStateUe 0 (.portShaper 256), .regionStateUe 0 (.headTag 4096), .regionStateUe 0 (.virtualTime 256 false),
  .regionStateUe 4 .allocatorCount, .glacierDescUe 16384 0, .poolAuditDone 2, .glacierStackFail 4, .d2dCrc ⟨64, 0, false⟩,
  .d2dWire 64 0, .d2dWire 0 132, .d2dLinkDown 2, .d2dRetrain [64], .fecDegradeWindow 1024 0 [], .linkFault 1024,
  .stewardWatchdog 5, .clockLoss 40, .clockLoss 37, .thermalWarn 29 0, .thermalTrip 29 0, .voltageOor 8 0] : List Instr).all (fun i => !i.wf) = true := by decide +kernel

theorem test_wf_refuses_8 : ([
  .cmdBufUe (.pcie 16) 0 0, .cmdBufUe .mgmt 16 0, .injectionPeriod 27 0,
  .riwenCommand ({ rGood with port := 1024 }) [], .riwenReply ({ rGood with port := 1024 }) [],
  .riwenEvent ({ rGood with port := 1024 }) [], .bell ({ rGood with port := 1024 }) bell 0,
  .bell ({ rGood with payloadLen := 4101 }) bell 0, .delayReq ({ rGood with port := 1024 }) 0 0,
  .delayResp ({ rGood with port := 1024 }) 0 0 0 0 0,
  .hello ({ rGood with port := 1024 }) 0 false (List.replicate 512 0), .hello rGood 4 false (List.replicate 512 0),
  .hello rGood 0 false (List.replicate 511 0), .prepare ({ rGood with port := 1024 }) 0 0,
  .vote ({ rGood with port := 1024 }) 0 0 false (List.replicate 512 0), .vote rGood 0 4 false (List.replicate 512 0),
  .vote rGood 0 0 false (List.replicate 511 0), .commit ({ rGood with port := 1024 }) 0 0,
  .commitAck ({ rGood with port := 1024 }) 0, .abort ({ rGood with port := 1024 }) 0 0, .abort rGood 0 5,
  .linkAlarm ({ rGood with port := 1024 }) 0 0 false 0 0 0, .linkAlarm rGood 16384 0 false 0 0 0,
  .linkAlarm rGood 0 1024 false 0 0 0, .linkAlarm rGood 0 0 false 2 0 0, .linkAlarm rGood 0 0 false 0 0 256,
  .tallySummary ({ rGood with port := 1024 }) [], .commandResend 4096, .alarmRepeat 1024, .remoteDownExpiry 1024] : List Instr).all (fun i => !i.wf) = true := by decide +kernel

theorem test_wf_refuses_9 : ([
  .wtrExpiry 256, .functionLevelReset 16, .stageClocksDone (List.replicate 16 false) (List.replicate 17 false),
  .stageClocksDone (List.replicate 17 false) (List.replicate 16 false), .stageGlacierDone (List.replicate 3 false),
  .stageD2dDone (List.replicate 63 false), .stageLanesDone (List.replicate 7 false), .dieReady { die := 2 }, .clockWake (.block 128),
  .prbsCheckerLock 1024, .prbsLockLost 1024 0 0, .coefficientRequest 1024 false false, .hostReceiveWrite 16 0,
  .slotEraseDone 2, .allocatorCountRecomputed 4] : List Instr).all (fun i => !i.wf) = true := by decide +kernel

theorem test_wf_refuses_counters : ([
  .perf 512, .mac 1024 0, .mac 0 79, .parser 1024 0, .parser 0 7, .meter 65536 0, .meter 0 3, .hits 32768, .histogram 16384 0,
  .histogram 0 16, .tally 1024] : List CounterName).all (fun c => !(Instr.regionStateUe 0 (.counterBoth c)).wf) = true := by
  decide +kernel

theorem test_wf_accepts_counters : ([
  .perf 511, .mac 1023 78, .parser 1023 6, .meter 65535 2, .hits 32767, .histogram 16383 15, .tally 1023] : List CounterName).all
    (fun c => (Instr.regionStateUe 3 (.counterBoth c)).wf) = true := by decide +kernel

theorem test_wf_accepts_0 : ([
  .identify good, .behaviourArm good, .behaviourCommit good, .behaviourDisarm good, .nop good, .barrier good,
  .queueConfig good, .epochStatus good, .activate good, .parishActivate good, .epochAbandon good,
  .functionRights good, .eventConfig good, .hostRingConfig good, .hostCodeMap good, .laneConfig good,
  .laneStatus good, .laneTxEq good, .laneRxEq good, .laneFomRead good, .prbsConfig ⟨good, 0, 0⟩, .prbsRead good 0 0,
  .laneRetrain good, .portConfig good, .portDelete good, .portStatus good, .macStatsRead ⟨good, 0⟩, .portFcConfig good,
  .portTsCal good, .parserPortConfig good] : List Instr).all (fun i => i.wf) = true := by decide +kernel

theorem test_wf_accepts_1 : ([
  .parseStateWrite good, .parseTransWrite good, .parseRead good, .patternWrite good, .rangeWrite good,
  .keyProfileWrite good, .ruleWrite good, .ruleDelete good, .ruleRead good, .parserStatsRead good, .tblPartition good,
  .emInsert good, .emDelete good, .lpmInsert good, .lpmDelete good, .tblSearch good, .tblNext good, .tblFlush good,
  .tblObjWrite good, .tblObjDelete good, .tblObjStatus good, .ecmpMemberWrite good, .tblPortConfig good,
  .tblGlobalConfig good, .emKeyProfileWrite good, .tblStatus good, .bufRegionConfig good, .bufPortConfig good,
  .bufQueueConfig good, .wredProfileWrite good] : List Instr).all (fun i => i.wf) = true := by decide +kernel

theorem test_wf_accepts_2 : ([
  .glacierQuotaConfig good, .bufRegionStatus good, .queueStatus good, .bufGlacierStatus good, .schedPortConfig good,
  .schedQueueConfig good, .gateListWrite good, .gateListRead good, .gateActivate good, .gateCancel good,
  .gateStatus good, .meterConfig good, .meterRead good, .schedQueueStatus good, .timeStatus good, .bellConfig good,
  .timeSourceConfig good, .timeAdjustStep good, .timeAdjustSlew good, .timeAdjustFreq good, .timeAdjustSet good,
  .timePpsLabel good, .tallyConfig good, .dumpRingConfig good, .tallyPortRead good, .pcConfig good, .pcRead good,
  .rateConfig good, .rateRead good, .sampleConfig good] : List Instr).all (fun i => i.wf) = true := by decide +kernel

theorem test_wf_accepts_3 : ([
  .mirrorConfig good, .errStatus good, .errInjectCancel good, .errInjectOnce good, .errInjectPeriodic good,
  .errInjectArmed good, .errConfig good, .errLogRead good, .stewardStatus good, .microcodeLoadBegin good,
  .microcodeLoadData good, .microcodeLoadEnd good, .microcodeLoadFromSlot good, .stewardPatch good,
  .stewardTraceRead good, .parishConfig good, .parishStatus good, .relayConfig good, .protectGroupWrite good,
  .watchSlotWrite good, .parishMemberRead good, .powerStatus good, .thermalConfig good, .clockStatus good,
  .keepRunning good, .allowStop good, .dieHold good, .dieRelease good, .avsConfig good, .journalRead good] : List Instr).all (fun i => i.wf) = true := by decide +kernel

theorem test_wf_accepts_4 : ([
  .journalAppend good, .imageWriteBegin good, .imageWriteData good, .imageWriteFinish good, .imageSelect good,
  .imageStatus good, .cmdDoorbell 0 0 0, .hostTxDoorbell 0 0, .adminCmdEnable 0 0, .registerWrite .mgmt 0 0,
  .cmdFifo ⟨List.replicate 64 0, false⟩, .rplFifo, .evtFifo, .resync 0, .go 0, .commandFetch 0 0 [], .mailboxCommandTake,
  .commandDispatch .mgmt 0, .commandComplete .mgmt 0 0, .atBeatBoundary .mgmt 0 0, .replyWrite .mgmt 0 ⟨0, false⟩,
  .eventDelivery 0 0 ⟨0, false⟩, .hostTxDescriptor 0 (List.replicate 8 0) [], .signalDetected 0, .negotiationResolved 0 0,
  .negTimeout 0, .trainingDone 0 [], .trainTimeout 0, .alignLock 0 [] 0 [] [], .alignTimeout 0] : List Instr).all (fun i => i.wf) = true := by decide +kernel

theorem test_wf_accepts_5 : ([
  .signalLost 0 false, .fomWindowEnd 0 ⟨0, true, false⟩ eqGood, .rxFrameStart 0, .rxFrameEnd 0 0 [] ⟨false, 0⟩, .pauseTimerExpiry 0 0,
  .pauseWdFired 0 0, .pauseWdEnded 0 0, .xoffRefresh 0 0, .parseStart 0 [], .admission 0 [], .refillRequest 0 [],
  .refillDataArrived 0 .clean, .pointerFetchDone 0 0, .pointerWritebackDone 0 0, .txSelect 0, .txUnderrun 0 0,
  .txFrameEnd 0, .portDrainStep 0, .shaperTick, .meterTick, .gateEntryChange 0, .gateTakeover 0, .queueSample 0,
  .beatBoundary, .tallyBankClose, .conservationCheck, .dumpUnitWrite 0 0, .ageSweepVisit 0, .learnInsert 0,
  .stashMove 0 0] : List Instr).all (fun i => i.wf) = true := by decide +kernel

theorem test_wf_accepts_6 : ([
  .stashMove 0 16383, .shadowRewriteDone 0 0, .epochCleanupDone 0, .flushDone 0, .objectFreed 0 0,
  .objectFreed 0 131071, .copyRebuildDone 0, .bellRateChange, .ppsEdge 0, .ref10mWindow 0, .sourceTimeout,
  .powerOnSecond, .powerOnSave, .microTrap 0 1, .patchLoad 0, .patchVerify 0 false, .patchDone 0, .patchFailed 0,
  .granaryUe 0 63 3 1279 false, .granaryScrub 0 [] [], .tableScrub 0 0 none, .tableUe 0 0 none,
  .clusterRecovery 0 false false, .fenceLift 0 false, .regionStateUe 0 .allocatorCount, .glacierDescUe 0 0,
  .poolAuditDone 0, .glacierStackFail 0, .d2dCrc ⟨0, 0, false⟩, .d2dWire 0 0] : List Instr).all (fun i => i.wf) = true := by decide +kernel

theorem test_wf_accepts_7 : ([
  .d2dLinkDown 0, .d2dRetrain [], .fecDegradeWindow 0 0 [], .linkFault 0, .stewardWatchdog 0, .clockLoss 0,
  .referenceLossTimeout, .thermalWarn 0 0, .thermalTrip 0 0, .voltageOor 0 0, .cmdBufUe .mgmt 0 0,
  .injectionPeriod 0 0, .riwenCommand rGood [], .riwenReply rGood [], .riwenEvent rGood [], .bell rGood bell 0,
  .delayReq rGood 0 0, .delayResp rGood 0 0 0 0 0, .hello rGood 0 false (List.replicate 512 0), .prepare rGood 0 0,
  .vote rGood 0 0 false (List.replicate 512 0), .commit rGood 0 0, .commitAck rGood 0, .abort rGood 0 0,
  .linkAlarm rGood 0 0 false 0 0 0, .tallySummary rGood [], .voteDeadline, .activationDeadline, .standbyAckTimeout,
  .commandResend 0] : List Instr).all (fun i => i.wf) = true := by decide +kernel

theorem test_wf_accepts_8 : ([
  .managerLost, .standbyTakeover, .alarmRepeat 0, .remoteDownExpiry 0, .wtrExpiry 0, .vauxApplied, .vauxRemoved,
  .coreRailsInRange 0, .resetN, .resetHoldEnd, .perstN, .functionLevelReset 0,
  .stageClocksDone (List.replicate 17 false) (List.replicate 17 false), .stageCentralDone, .stageRegionsDone,
  .stageGlacierDone (List.replicate 4 false), .stageD2dDone (List.replicate 64 false),
  .stageLanesDone (List.replicate 8 false), .imageRestartTimer, .dieReady { die := 0 }, .avsStep 0, .clockWake .mclk, .branchStop,
  .prbsCheckerLock 0, .prbsLockLost 0 0 0, .coefficientRequest 0 false false, .hostReceiveWrite 0 0, .slotEraseDone 0,
  .referenceRestored, .pcieLinkUp] : List Instr).all (fun i => i.wf) = true := by decide +kernel

theorem test_wf_accepts_9 : ([
  .allocatorCountRecomputed 0] : List Instr).all (fun i => i.wf) = true := by decide +kernel

/-! ### Worked examples of the spec -/

/-- Port 612 at 100 Gb/s with the two queues of the example "WFQ finish-time wrap" (spec 07), each with a frame of 1,500 bytes. -/
def frame1500 (id idx : Nat) : Pkt :=
  { id := id, ingress := some 8, len := 1500, egress := some 612, qidx := idx, data := List.replicate 1496 0 }
def wfq (v t0 t1 : BitVec 32) : State :=
  let s := withPort ready 612 { up1 with rate := 3, vOrdinary := v }
  let s := s.setQueue 9792 { weight := 100, granary := [frame1500 1 0, frame1500 2 0], headF := some t0, grDepth := 24 }
  s.setQueue 9793 { weight := 300, granary := [frame1500 3 1, frame1500 4 1], headF := some t1, grDepth := 24 }

def after (i : Instr) (s : State) : State := (nextOf (exec i s)).getD s

/-- Step 1 of the example: 9,793 is selected; V and its new head tag. -/
theorem test_wfq_step_1 :
    (let t := after (.txSelect 612) (wfq 0xFFFFA000 0xFFFFDCCD 0xFFFFB445)
     ((t.port 612).vOrdinary, (t.queue 9792).headF, (t.queue 9793).headF)) =
      (0xFFFFB445, some 0xFFFFDCCD, some 0xFFFFC88A) := by decide +kernel

/-- Step 4 of the example: the tag beyond the wrap comes after. -/
theorem test_wfq_step_4 :
    (let t := after (.txSelect 612) (wfq 0xFFFFDCCD 0x0000199A 0xFFFFDCCF)
     ((t.port 612).vOrdinary, (t.queue 9792).headF, (t.queue 9793).headF)) =
      (0xFFFFDCCF, some 0x0000199A, some 0xFFFFF114) := by decide +kernel

/-- Step 7 of the example: 9,792 is selected. -/
theorem test_wfq_step_7 :
    (let t := after (.txSelect 612) (wfq 0x00000559 0x0000199A 0x0000199E)
     ((t.port 612).vOrdinary, (t.queue 9792).headF)) = (0x0000199A, some 0x00005667) := by decide +kernel

/-- The example "Credit and overhead at 10 Gb/s" (spec 07): 10,000,000 kb/s is 10 bytes a step. -/
theorem test_shaper_step : incOf 10000000 = 10 * byteUnit := by decide +kernel

/-- The example "Gate list activation in the past" (spec 07): CYCLES_LATE 3, beat 1,000,000, phase 750,000 ns. -/
def gatesLate (ns : Nat) : State :=
  let s := withPort ready 612 { up1 with gates := { en := true, bank1 := [(0, { states := 1, interval := 250000 })] } }
  { s with time := { s.time with ns := ns, beat := 1000000 } }
def gateWords5 : List Nat := [612, 1, 250000, 1000000, 0, 0]
theorem test_gate_activate_late :
    ((after (.gateActivate (pk 0x0605 gateWords5)) (gatesLate 1000000731400)).cif.results.map (·.words)) =
      [[3, 1000000, 0, 750000]] := by decide +kernel
theorem test_gate_activate_later :
    ((after (.gateActivate (pk 0x0605 gateWords5)) (gatesLate 1000000749500)).cif.results.map (·.words)) =
      [[4, 1000001, 0, 0]] := by decide +kernel
theorem test_gate_activate_strict :
    ((after (.gateActivate { pk 0x0605 gateWords5 with strictTime := true })
      (gatesLate 1000000731400)).cif.results.map (·.status)) = [0x51] := by decide +kernel

/-- The example "A backward step under running beats" (spec 08). -/
def beforeStep : State :=
  { ready with time := { ready.time with ns := 5000000400000, beat := 5000000, state := .freerun } }
theorem test_backward_step :
    (let t := beforeStep.stepBy (-1500000 * nsUnit)
     (t.time.ns, t.time.beat, t.tally.stepped)) = (4999998900000, 5000000, true) := by decide +kernel

/-- The example "Locating a port" (spec 00). -/
theorem test_locate_port_516 : laneRegion 516 = 2 ∧ laneCluster 516 = 8 ∧ queueRegion 8256 = 2 ∧ queuePort 8271 = 516 := by
  decide +kernel

/-! The example "Four frames at the parser's edges" (spec 04); the bytes follow the formats of the protocols it names. -/

def eth (et : List Byte) : List Byte := List.replicate 12 2 ++ et
/-- An IPv4 header without options: total length, protocol. -/
def ip4 (lenHi lenLo proto : Byte) : List Byte :=
  [0x45, 0, lenHi, lenLo, 0, 0, 0, 0, 64, proto, 0, 0, 10, 0, 0, 1, 10, 0, 0, 2]
def ip6 (lenHi lenLo next : Byte) : List Byte :=
  [0x60, 0, 0, 0, lenHi, lenLo, next, 64] ++ List.replicate 32 1
def pad (n : Nat) (l : List Byte) : List Byte := l ++ List.replicate (n - l.length) 0
def frameA : List Byte := pad 60 (eth [8, 0] ++ ip4 0 32 17 ++ [0, 1, 0, 2, 0, 12, 0, 0, 1, 2, 3, 4])
def frameB : List Byte := pad 1014 (eth [8, 0] ++ ip4 5 220 6 ++ [0, 1, 0, 2, 0, 0, 0, 0, 0, 0, 0, 0, 0x50, 0, 0, 0, 0, 0, 0, 0])
def options14 : List Byte := ((List.range 14).map fun _ => [(60 : Byte), 0, 1, 4, 0, 0, 0, 0]).flatten
def frameC : List Byte := pad 296 (eth [0x86, 0xDD] ++ ip6 0 242 60 ++ options14)
def frameD (n : Nat) (lenHi lenLo : Byte) : List Byte := pad n (eth [0x86, 0xDD] ++ ip6 lenHi lenLo 0 ++ [59, 59])
def parsed (l : List Byte) (ended : Bool) : HdrVec × Bool :=
  p8u.parseFrame 8 { bytes := l, e0 := if ended then some l.length else none }

theorem test_frame_a :
    (let r := parsed frameA true
     (r.2, r.1.parseLimit, r.1.payloadOffset, r.1.payloadLen, r.1.trail 60)) = (false, false, 42, 4, 14) := by decide +kernel
theorem test_frame_b :
    ((parsed (frameB.take 768) false).1.lengthPending, (parsed (frameB.take 768) false).2, (parsed frameB true).2) =
      (true, false, true) := by decide +kernel
theorem test_frame_c :
    (let r := parsed frameC true
     (r.2, r.1.parseLimit, r.1.slots.length, [r.1.c 28, r.1.c 29, r.1.c 30], r.1.stateFlags.getLsbD 3, r.1.profile)) =
      (false, true, 16, [0, 0, 0], true, 1) := by decide +kernel
theorem test_frame_d :
    ((parsed (frameD 1196 4 118) true).2, (parsed (frameD 1196 4 118) true).1.parseLimit,
      (parsed (frameD 1196 4 118) true).1.slots.length, (parsed (frameD 496 1 186) true).2) = (false, true, 2, true) := by
  decide +kernel

namespace Lanes

def p8w4 := withPort ready 8 { down1 with width := 4 }
def eqOk : List Nat := [0x200000 + 8, 0x05 + 0x300, 0, 0x40] ++ List.replicate 6 0

/-- Inputs that meet the hypotheses of each clause of Obligations.LaneCommandsComplete. -/
theorem witness_LaneCommandsComplete :
    (∃ (c : Cmd) (s : State), (s.takes 0x0201 c = true) ∧ (fld (wd c.words 1) 8 3 < 5) ∧ (fld (wd c.words 2) 16 16 ≤ 8000) ∧
      ((Option.any (fun p => decide (p ≠ laneOf c)) (s.lanePort? (laneOf c)) = true → (bit (wd c.words 1) 0 = false ∧ (bit (wd c.words 1) 1 = false ∧ (bit (wd c.words 1) 2 = false ∧ (fld (wd c.words 1) 8 3 = 0 ∧ fld (wd c.words 1) 16 5 = 0)))))) ∧
      ((Option.any (fun p => decide (p ≠ laneOf c)) (s.lanePort? (laneOf c)) = false → (bit (wd c.words 1) 0 = true → fld (wd c.words 1) 16 5 ≠ 0))) ∧
      ((Option.any (fun p => decide (p ≠ laneOf c)) (s.lanePort? (laneOf c)) = false → (bit (wd c.words 1) 0 = false → (((s.port? (laneOf c)).all fun v => decide (comboOk v.width.toNat (fld (wd c.words 1) 8 3) = true)) = true))))) ∧
    (∃ (c : Cmd) (s : State), (s.takes 0x0202 c = true)) ∧
    (∃ (c : Cmd) (s : State), (s.takes 0x0203 c = true) ∧ (bit (wd c.words 1) 31 = false) ∧ (fld (wd c.words 1) 0 5 ≤ 16) ∧
      (fld (wd c.words 1) 8 5 ≤ 24) ∧ (fld (wd c.words 1) 16 4 ≤ 12)) ∧
    (∃ (c : Cmd) (s : State), (s.takes 0x0203 c = true) ∧ (wd c.words 1 = 2147483648#32)) ∧
    (∃ (c : Cmd) (s : State), (s.takes 0x0204 c = true) ∧ (bit (wd c.words 0) 31 = false) ∧ (fld (wd c.words 0) 20 2 = 2) ∧
      (rxEqOk (rxEqOf c.words) = true)) ∧
    (∃ (c : Cmd) (s : State), (s.takes 0x0204 c = true) ∧ (bit (wd c.words 0) 31 = false) ∧ (fld (wd c.words 0) 20 2 < 2)) ∧
    (∃ (c : Cmd) (s : State), (s.takes 0x0204 c = true) ∧ (bit (wd c.words 0) 31 = true) ∧ (fld (wd c.words 0) 20 2 = 0)) ∧
    (∃ (c : Cmd) (s : State), (s.takes 0x0205 c = true) ∧ (1 ≤ fld (wd c.words 0) 10 8) ∧
      (laneOf c % 128 + fld (wd c.words 0) 10 8 ≤ 128)) ∧
    (∃ (c : Cmd) (s : State), (s.takes 0x0206 c = true) ∧
      (patternBad (fld (wd c.words 1) 0 4) (s.testRate (laneOf c)) = false) ∧
      (patternBad (fld (wd c.words 1) 4 4) (s.testRate (laneOf c)) = false) ∧
      ((((s.lanePort? (laneOf c)).all fun p => decide (((s.port p).adminUp = true → (fld (wd c.words 1) 0 4 = 0 ∧ fld (wd c.words 1) 4 4 = 0)))) = true))) ∧
    (∃ (c : Cmd) (s : State), (s.takes 0x0207 c = true)) ∧
    (∃ (c : Cmd) (s : State), (s.takes 0x0208 c = true)) :=
  ⟨⟨pk 0x0201 [8, 2032640 + 63, 32769501], ready, by decide +kernel⟩,
   ⟨pk 0x0202 [8], p8u, by decide +kernel⟩,
   ⟨pk 0x0203 [8, 197637], ready, by decide +kernel⟩,
   ⟨pk 0x0203 [8, 2147483648], ready, by decide +kernel⟩,
   ⟨pk 0x0204 eqOk, ready, by decide +kernel⟩,
   ⟨pk 0x0204 [1048576 + 8], ready, by decide +kernel⟩,
   ⟨pk 0x0204 [2147483648 + 8], ready.setLane 8 { eq := { ctle := 3, dfe1 := 2, ffe := List.replicate 32 1 } },
     by decide +kernel⟩,
   ⟨pk 0x0205 [8 + 3 * 1024], ready, by decide +kernel⟩,
   ⟨pk 0x0206 [8, 273], ready, by decide +kernel⟩,
   ⟨pk 0x0207 [2147483656], ready, by decide +kernel⟩,
   ⟨pk 0x0208 [8], p8u, by decide +kernel⟩⟩

end Lanes

namespace Ports

def p8u := withPort ready 8 { up1 with mac := [(3, 5)], pause := [(2, { xoff := true })] }
def p8w4 := withPort ready 8 { down1 with width := 4 }

/-- Inputs that meet the hypotheses of each clause of Obligations.PortConfigAndDeleteComplete. -/
theorem witness_PortConfigAndDeleteComplete :
    (∃ (c : Cmd) (s : State), (s.takes 0x0210 c = true) ∧
      ((fld (wd c.words 1) 0 4 = 1 ∨ (fld (wd c.words 1) 0 4 = 2 ∨ (fld (wd c.words 1) 0 4 = 4 ∨ fld (wd c.words 1) 0 4 = 8)))) ∧
      (fld (wd c.words 1) 6 2 ≠ 3) ∧ (1 ≤ fld (wd c.words 1) 8 7) ∧ (fld (wd c.words 1) 8 7 ≤ 64) ∧
      (64 ≤ fld (wd c.words 2) 0 14) ∧ (portOf c % fld (wd c.words 1) 0 4 = 0) ∧
      (((s.lane (portOf c)).anEnable = false → comboOk (fld (wd c.words 1) 0 4) (s.lane (portOf c)).forcedRate.toNat = true)) ∧
      (s.overlaps (portOf c) (fld (wd c.words 1) 0 4) = false) ∧
      ((s.port? (portOf c) = none → 104 ≤ s.sharedSize (laneRegion (portOf c)))) ∧
      ((((s.port? (portOf c)).all fun v => decide (((v.adminUp = true → v.width.toNat = fld (wd c.words 1) 0 4) ∧ (v.riwenEn = true → 4134 ≤ fld (wd c.words 2) 0 14)))) = true))) ∧
    (∃ (c : Cmd) (s : State), (s.takes 0x0211 c = true) ∧ (s.portEmpty (portOf c) = true) ∧
      ((s.port? (portOf c)).any fun v => decide ((v.adminUp = false))) = true) :=
  ⟨⟨pk 0x0210 [8, 276, 9216], ready, by decide +kernel⟩,
   ⟨pk 0x0211 [8], p8, by decide +kernel⟩⟩

/-- Inputs that meet the hypotheses of each clause of Obligations.PortReadsAndSettingsComplete. -/
theorem witness_PortReadsAndSettingsComplete :
    (∃ (c : Cmd) (s : State), (s.takes 0x0212 c = true) ∧ (s.port? (portOf c)).isSome = true) ∧
    (∃ (c : Cmd) (s : State), (s.takes 0x0213 c = true) ∧ (1 ≤ fld (wd c.words 1) 8 7) ∧
      (fld (wd c.words 1) 0 7 + fld (wd c.words 1) 8 7 ≤ 79) ∧
      ((s.port? (portOf c)).any fun v => decide (((∀ i ∈ v.macFrozen, (i < fld (wd c.words 1) 0 7 ∨ fld (wd c.words 1) 0 7 + fld (wd c.words 1) 8 7 ≤ i))))) = true) ∧
    (∃ (c : Cmd) (s : State), (s.takes 0x0214 c = true) ∧ (1 ≤ fld (wd c.words 1) 0 14) ∧
      (fld (wd c.words 1) 0 14 ≤ 10000) ∧ (1 ≤ fld (wd c.words 1) 14 10) ∧ (fld (wd c.words 1) 14 10 ≤ 1000) ∧
      (fld (wd c.words 4) 16 16 < fld (wd c.words 4) 0 16) ∧ (s.port? (portOf c)).isSome = true) ∧
    (∃ (c : Cmd) (s : State), (s.takes 0x0215 c = true) ∧ (bit (wd c.words 0) 31 = false) ∧
      (-100000 ≤ signed 32 (BitVec.toNat (wd c.words 1))) ∧ (signed 32 (BitVec.toNat (wd c.words 1)) ≤ 100000) ∧
      (-100000 ≤ signed 32 (BitVec.toNat (wd c.words 2))) ∧ (signed 32 (BitVec.toNat (wd c.words 2)) ≤ 100000) ∧
      (s.port? (portOf c)).isSome = true) ∧
    (∃ (c : Cmd) (s : State), (s.takes 0x0215 c = true) ∧ (bit (wd c.words 0) 31 = true) ∧ (wd c.words 1 = 0) ∧
      (wd c.words 2 = 0) ∧ (s.port? (portOf c)).isSome = true) :=
  ⟨⟨pk 0x0212 [8], p8u, by decide +kernel⟩,
   ⟨pk 0x0213 [8, 2147484674], p8u, by decide +kernel⟩,
   ⟨pk 0x0214 [8, 10 + 10 * 2 ^ 14 + 2 ^ 24, 7, 9, 65535, 1, 2], p8u, by decide +kernel⟩,
   ⟨pk 0x0215 [8, 5, 4294967280], p8u, by decide +kernel⟩,
   ⟨pk 0x0215 [2147483656, 0, 0], p8u, by decide +kernel⟩⟩

end Ports

namespace ParserRows

def rl : Rule := { value := 0, mask := 0, act0 := 0, act1 := 0, act2 := 0 , hits := { val := 4 } }
def withRule : State := (List.range 4).foldl (fun s g => { s with parse := { s.parse with regions := tins s.parse.regions g { rules := [(3, rl)] } } }) ready
def st55 (n : Nat) : List Nat := [n, 0, 0, 0x00010000, 1, 0, 0] ++ List.replicate 48 0
def staged (s : State) : State := { s with cif := { s.cif with epochs := [{ epoch := 7, state := .staging, slot := some true, changes := 2 }] } }
def cs (e : Nat) : List (Cmd × State) := [
  (pk 0x0301 [8, e, 5], p8), (pk 0x0301 [8, e, 5], staged p8), (pk 0x0302 (st55 0), ready), (pk 0x0302 ((st55 0).set 1 e), ready),
  (pk 0x0303 [4, e, 1, 3, 0x10005], ready), (pk 0x0305 [0xF0003, e, 4, 0x01020304, 0, 0, 0, 0xFFFFFFFF, 0, 0, 0], ready),
  (pk 0x0305 [0x50003, e, 4, 0, 0, 0, 0, 0, 0, 0, 0], ready), (pk 0x0306 [0xF0003, e, 0x81, 0x00200010], ready),
  (pk 0x0307 [0xF0003, e, 1, 2, 3, 4, 5, 6, 7], ready), (pk 0x0308 ([0xF0003, e] ++ List.replicate 44 0), ready),
  (pk 0x0308 ([0x1F0003, e] ++ List.replicate 44 0), withRule),(pk 0x0308 ([0x1F0003, e] ++ List.replicate 44 0), ready), (pk 0x0309 [0xF0003, e], withRule), (pk 0x0309 [0x10003, e], withRule)]

/-- Inputs that meet the hypotheses of each clause of Obligations.ParserChangesCompleteAtOnce. -/
theorem witness_ParserChangesCompleteAtOnce :
    (∃ (c : Cmd) (s : State), (epochOf c = 0) ∧ (s.takes 0x0301 c = true) ∧ (fld (wd c.words 2) 0 8 ≠ 255) ∧
      (fld (wd c.words 2) 8 2 ≠ 3) ∧
      ((∀ x ∈ s.parse.staged, x.snd.meets (ParseChange.portCfg (portOf c) (wd c.words 2)) = false)) ∧
      (s.port? (portOf c)).isSome = true) ∧
    (∃ (c : Cmd) (s : State), (epochOf c = 0) ∧ (s.takes 0x0302 c = true) ∧ (fld (wd c.words 0) 0 8 ≠ 255) ∧
      ((pstateOf (wd c.words)).lenFixed.toNat ≤ 512) ∧
      ((1 ≤ (pstateOf (wd c.words)).minLen.toNat ∨ ((pstateOf (wd c.words)).lenMode = false ∧ (pstateOf (wd c.words)).lenFixed = 0))) ∧
      ((pstateOf (wd c.words)).minLen.toNat ≤ 512) ∧ ((pstateOf (wd c.words)).tCount.toNat ≤ 16) ∧
      ((pstateOf (wd c.words)).tBase.toNat + (pstateOf (wd c.words)).tCount.toNat ≤ 2048) ∧
      ((∀ e ∈ (pstateOf (wd c.words)).extracts, e.snd.width ≠ 3)) ∧
      ((∀ x ∈ s.parse.staged, x.snd.meets (ParseChange.pstate (fld (wd c.words 0) 0 8) (pstateOf (wd c.words))) = false))) ∧
    (∃ (c : Cmd) (s : State), (epochOf c = 0) ∧ (s.takes 0x0303 c = true) ∧ (wd c.words 2 &&& ~~~wd c.words 3 = 0) ∧
      (s.parse.staged = [])) ∧
    (∃ (c : Cmd) (s : State), (epochOf c = 0) ∧ (s.takes 0x0305 c = true) ∧ (regionMask c ≠ 0) ∧
      ((patternOf c.words).len.toNat ≤ 16) ∧ (beyondLen (patternOf c.words) (patternOf c.words).value = false) ∧
      (beyondLen (patternOf c.words) (patternOf c.words).mask = false) ∧
      ((patternOf c.words).value &&& ~~~(patternOf c.words).mask = 0) ∧
      (((patternOf c.words).floating = true → (patternOf c.words).startMin.toNat ≤ (patternOf c.words).startMax.toNat)) ∧
      ((∀ x ∈ s.parse.staged, x.snd.meets (ParseChange.pattern (regionMask c) (fld (wd c.words 0) 0 5) (patternOf c.words)) = false))) ∧
    (∃ (c : Cmd) (s : State), (epochOf c = 0) ∧ (s.takes 0x0306 c = true) ∧ (regionMask c ≠ 0) ∧
      (fld (wd c.words 3) 0 16 ≤ fld (wd c.words 3) 16 16) ∧ (s.parse.staged = [])) ∧
    (∃ (c : Cmd) (s : State), (epochOf c = 0) ∧ (s.takes 0x0307 c = true) ∧ (regionMask c ≠ 0) ∧
      ((∀ x ∈ s.parse.staged, x.snd.meets (ParseChange.profile (regionMask c) (fld (wd c.words 0) 0 4) (profileOf c.words)) = false))) ∧
    (∃ (c : Cmd) (s : State), (epochOf c = 0) ∧ (s.takes 0x0308 c = true) ∧ (regionMask c ≠ 0) ∧
      (ruleRefused (ruleOf c.words) = false) ∧
      ((fld (ruleOf c.words).act0 13 2 = 1 → s.destRefused (fld (ruleOf c.words).act2 0 2) (fld (ruleOf c.words).act2 2 20) 0 = none)) ∧
      (s.parse.staged = []) ∧
      ((bit (wd c.words 0) 20 = false → (∀ g, g < 4 → ((regionMask c).getLsbD g = true → thas (s.classRegion g).rules (fld (wd c.words 0) 0 15) = false))))) ∧
    (∃ (c : Cmd) (s : State), (epochOf c = 0) ∧ (s.takes 0x0309 c = true) ∧ (regionMask c ≠ 0) ∧ (s.parse.staged = []) ∧
      ((∀ g, g < 4 → ((regionMask c).getLsbD g = true → thas (s.classRegion g).rules (fld (wd c.words 0) 0 15) = true)))) :=
  ⟨⟨pk 0x0301 [8, 0, 5], p8, by decide +kernel⟩,
   ⟨pk 0x0302 (st55 0), ready, by decide +kernel⟩,
   ⟨pk 0x0303 [4, 0, 1, 3, 65541], ready, by decide +kernel⟩,
   ⟨pk 0x0305 [983043, 0, 4, 16909060, 0, 0, 0, 4294967295, 0, 0, 0], ready, by decide +kernel⟩,
   ⟨pk 0x0306 [983043, 0, 129, 2097168], ready, by decide +kernel⟩,
   ⟨pk 0x0307 [983043, 0, 1, 2, 3, 4, 5, 6, 7], ready, by decide +kernel⟩,
   ⟨pk 0x0308 ([983043, 0] ++ List.replicate 44 0), ready, by decide +kernel⟩,
   ⟨pk 0x0309 [983043, 0], withRule, by decide +kernel⟩⟩

/-- Inputs that meet the hypotheses of each clause of Obligations.ParserChangesAreStagedUnderAnEpoch. -/
theorem witness_ParserChangesAreStagedUnderAnEpoch :
    (∃ (c : Cmd) (s : State), (epochOf c ≠ 0) ∧ (s.takes 0x0301 c = true) ∧ (fld (wd c.words 2) 0 8 ≠ 255) ∧
      (fld (wd c.words 2) 8 2 ≠ 3) ∧
      ((∀ x ∈ s.parse.staged, (x.snd.meets (ParseChange.portCfg (portOf c) (wd c.words 2)) = true → s.epochSlot (epochOf c) = some x.fst))) ∧
      ((okOf Nat Bool (s.slotFor (epochOf c))).any fun b => decide ((s.port? (portOf c)).isSome = true)) = true) ∧
    (∃ (c : Cmd) (s : State), (epochOf c ≠ 0) ∧ (s.takes 0x0305 c = true) ∧ (regionMask c ≠ 0) ∧
      ((patternOf c.words).len.toNat ≤ 16) ∧ (beyondLen (patternOf c.words) (patternOf c.words).value = false) ∧
      (beyondLen (patternOf c.words) (patternOf c.words).mask = false) ∧
      ((patternOf c.words).value &&& ~~~(patternOf c.words).mask = 0) ∧ ((patternOf c.words).floating = false) ∧
      ((∀ x ∈ s.parse.staged, (x.snd.meets (ParseChange.pattern (regionMask c) (fld (wd c.words 0) 0 5) (patternOf c.words)) = true → s.epochSlot (epochOf c) = some x.fst))) ∧
      (okOf Nat Bool (s.slotFor (epochOf c))).isSome = true) ∧
    (∃ (c : Cmd) (s : State), (epochOf c ≠ 0) ∧ (s.takes 0x0307 c = true) ∧ (regionMask c ≠ 0) ∧
      ((∀ x ∈ s.parse.staged, (x.snd.meets (ParseChange.profile (regionMask c) (fld (wd c.words 0) 0 4) (profileOf c.words)) = true → s.epochSlot (epochOf c) = some x.fst))) ∧
      (okOf Nat Bool (s.slotFor (epochOf c))).isSome = true) ∧
    (∃ (c : Cmd) (s : State), (epochOf c ≠ 0) ∧ (s.takes 0x0302 c = true) ∧ (fld (wd c.words 0) 0 8 ≠ 255) ∧
      ((pstateOf (wd c.words)).lenFixed.toNat ≤ 512) ∧
      ((1 ≤ (pstateOf (wd c.words)).minLen.toNat ∨ ((pstateOf (wd c.words)).lenMode = false ∧ (pstateOf (wd c.words)).lenFixed = 0))) ∧
      ((pstateOf (wd c.words)).minLen.toNat ≤ 512) ∧ ((pstateOf (wd c.words)).tCount.toNat ≤ 16) ∧
      ((pstateOf (wd c.words)).tBase.toNat + (pstateOf (wd c.words)).tCount.toNat ≤ 2048) ∧
      ((∀ e ∈ (pstateOf (wd c.words)).extracts, e.snd.width ≠ 3)) ∧
      ((∀ x ∈ s.parse.staged, (x.snd.meets (ParseChange.pstate (fld (wd c.words 0) 0 8) (pstateOf (wd c.words))) = true → s.epochSlot (epochOf c) = some x.fst))) ∧
      (okOf Nat Bool (s.slotFor (epochOf c))).isSome = true) ∧
    (∃ (c : Cmd) (s : State), (epochOf c ≠ 0) ∧ (s.takes 0x0303 c = true) ∧ (wd c.words 2 &&& ~~~wd c.words 3 = 0) ∧
      (s.parse.staged = []) ∧ (okOf Nat Bool (s.slotFor (epochOf c))).isSome = true) ∧
    (∃ (c : Cmd) (s : State), (epochOf c ≠ 0) ∧ (s.takes 0x0306 c = true) ∧ (regionMask c ≠ 0) ∧
      (fld (wd c.words 3) 0 16 ≤ fld (wd c.words 3) 16 16) ∧ (s.parse.staged = []) ∧
      (okOf Nat Bool (s.slotFor (epochOf c))).isSome = true) ∧
    (∃ (c : Cmd) (s : State), (epochOf c ≠ 0) ∧ (s.takes 0x0308 c = true) ∧ (regionMask c ≠ 0) ∧
      (ruleRefused (ruleOf c.words) = false) ∧ (bit (wd c.words 0) 20 = true) ∧ (fld (ruleOf c.words).act0 13 2 ≠ 1) ∧
      (s.parse.staged = []) ∧ (okOf Nat Bool (s.slotFor (epochOf c))).isSome = true) ∧
    (∃ (c : Cmd) (s : State), (epochOf c ≠ 0) ∧ (s.takes 0x0309 c = true) ∧ (regionMask c ≠ 0) ∧ (s.parse.staged = []) ∧
      ((∀ g, g < 4 → ((regionMask c).getLsbD g = true → s.ruleThere (epochOf c) g (fld (wd c.words 0) 0 15) = true))) ∧
      (okOf Nat Bool (s.slotFor (epochOf c))).isSome = true) :=
  ⟨⟨pk 0x0301 [8, 7, 5], p8, by decide +kernel⟩,
   ⟨pk 0x0305 [983043, 7, 4, 16909060, 0, 0, 0, 4294967295, 0, 0, 0], ready, by decide +kernel⟩,
   ⟨pk 0x0307 [983043, 7, 1, 2, 3, 4, 5, 6, 7], ready, by decide +kernel⟩,
   ⟨pk 0x0302 ((st55 0).set 1 7), ready, by decide +kernel⟩,
   ⟨pk 0x0303 [4, 7, 1, 3, 65541], ready, by decide +kernel⟩,
   ⟨pk 0x0306 [983043, 7, 129, 2097168], ready, by decide +kernel⟩,
   ⟨pk 0x0308 ([2031619, 7] ++ List.replicate 44 0), withRule, by decide +kernel⟩,
   ⟨pk 0x0309 [983043, 7], withRule, by decide +kernel⟩⟩

/-- Inputs that meet the hypotheses of each clause of Obligations.ParserReadsComplete. -/
theorem witness_ParserReadsComplete :
    (∃ (c : Cmd) (s : State), (s.takes 0x0304 c = true) ∧ (fld (wd c.words 0) 0 3 = 0) ∧ (fld (wd c.words 0) 16 11 ≤ 254)) ∧
    (∃ (c : Cmd) (s : State), (s.takes 0x0304 c = true) ∧ (fld (wd c.words 0) 0 3 = 1)) ∧
    (∃ (c : Cmd) (s : State), (s.takes 0x0304 c = true) ∧ (fld (wd c.words 0) 0 3 = 2) ∧ (fld (wd c.words 0) 16 11 ≤ 31)) ∧
    (∃ (c : Cmd) (s : State), (s.takes 0x0304 c = true) ∧ (fld (wd c.words 0) 0 3 = 3) ∧ (fld (wd c.words 0) 16 11 ≤ 63)) ∧
    (∃ (c : Cmd) (s : State), (s.takes 0x0304 c = true) ∧ (fld (wd c.words 0) 0 3 = 4) ∧ (fld (wd c.words 0) 16 11 ≤ 15)) ∧
    (∃ (c : Cmd) (s : State), (s.takes 0x030A c = true) ∧
      ((tget? (s.classRegion (fld (wd c.words 0) 16 2)).rules (fld (wd c.words 0) 0 15)).any fun x => decide ((x.hits.frozen = false))) = true) ∧
    (∃ (c : Cmd) (s : State), (s.takes 0x030A c = true) ∧
      (tget? (s.classRegion (fld (wd c.words 0) 16 2)).rules (fld (wd c.words 0) 0 15) = none)) ∧
    (∃ (c : Cmd) (s : State), (s.takes 0x030B c = true) ∧
      ((s.port? (portOf c)).any fun v => decide ((v.parserFrozen = []))) = true) :=
  ⟨⟨pk 0x0304 [20 * 65536], ready, by decide +kernel⟩,
   ⟨pk 0x0304 [65536 * 4 + 1],
     { ready with parse := { trans := [(4, { value := 3, mask := 7, next := 9, valid := true })] } }, by decide +kernel⟩,
   ⟨pk 0x0304 [65536 * 4 + 2], ready, by decide +kernel⟩,
   ⟨pk 0x0304 [65536 * 4 + 3], ready, by decide +kernel⟩,
   ⟨pk 0x0304 [65536 * 4 + 4], ready, by decide +kernel⟩,
   ⟨pk 0x030A [2147483651], withRule, by decide +kernel⟩,
   ⟨pk 0x030A [3], ready, by decide +kernel⟩,
   ⟨pk 0x030B [8, 0], withPort ready 8 { up1 with parserStat := [(2, 7)] }, by decide +kernel⟩⟩

end ParserRows

namespace TableEntries

def emw (key fid : Nat) (kt : Nat) (r : Nat := 0) : List Nat := [r, 0, key, 0, fid * 1024, kt * 2^26]
def ek (key kt : Nat) : List Nat := [0, 0, key, 0, kt * 2^12]
def lw (fam len : Nat) (p : List Nat) (r : Nat) (rep : Nat := 0): List Nat := [fam + 2 * len + 512 * rep, 0] ++ p ++ [r]
def ld (fam len : Nat) (p : List Nat) : List Nat := [fam + 2 * len, 0] ++ p
def v4 (a : Nat) : List Nat := [a, 0, 0, 0]
def v6 (a : Nat) : List Nat := [a, 0x12, 0, 0]
def dst : Nat := 8 * 4
def base := runAll p8 [.emInsert (pk 0x0402 (emw 77 8 0)), .emInsert (pk 0x0402 (emw 78 8 1)),
  .lpmInsert (pk 0x0404 (lw 0 0 (v4 0) dst)), .lpmInsert (pk 0x0404 (lw 0 12 (v4 0x0A000000) dst)), .lpmInsert (pk 0x0404 (lw 0 24 (v4 0x0A010200) dst)),
  .lpmInsert (pk 0x0404 (lw 1 0 (v4 0) dst)), .lpmInsert (pk 0x0404 (lw 1 12 (v4 0x20000000) dst)), .lpmInsert (pk 0x0404 (lw 1 64 (v6 0x20010db8) dst)),
  .tblObjWrite (pk 0x0409 ([2 + 4 * 5, 0] ++ List.replicate 16 0)), .tblObjWrite (pk 0x0409 ([0 + 4 * 6, 0, 8, 0])), .tblObjWrite (pk 0x0409 ([1 + 4 * 7, 0, 16 + 4 * 65536, 0])),
  .ecmpMemberWrite (pk 0x040C [17, 0, 6 + 2^17])]
def staged (s : State) : State := { s with cif := { s.cif with epochs := [{ epoch := 7, state := .staging, slot := some true, changes := 2 }] } }

/-- Inputs that meet the hypotheses of each clause of Obligations.TableSettingsComplete. -/
theorem witness_TableSettingsComplete :
    (∃ (c : Cmd) (s : State), (s.takes 0x0401 c = true) ∧ (epochOf c = 0) ∧ (fld (wd c.words 2) 0 2 ≠ 3) ∧
      (s.hashedEmpty = true)) ∧
    (∃ (c : Cmd) (s : State), (s.takes 0x040E c = true) ∧ (epochOf c = 0) ∧
      ((fld (wd c.words 2) 0 24 = 0 ∨ leastAge s.time.beats.toNat ≤ fld (wd c.words 2) 0 24)) ∧
      (1 ≤ fld (wd c.words 3) 0 16)) ∧
    (∃ (c : Cmd) (s : State), (s.takes 0x040D c = true) ∧ (epochOf c = 0) ∧ (fld (wd c.words 2) 0 2 ≠ 3) ∧
      (fld (wd c.words 2) 4 12 ≠ 0) ∧ (fld (wd c.words 2) 4 12 ≠ 4095) ∧
      ((fld (wd c.words 3) 0 21 ≤ 1064960 ∨ fld (wd c.words 3) 0 21 = 2097151)) ∧ (s.port? (portOf c)).isSome = true) ∧
    (∃ (c : Cmd) (s : State), (s.takes 0x040F c = true) ∧ (epochOf c = 0) ∧ (fld (wd c.words 2) 0 4 ≤ 2) ∧
      ((s.parse.staged = []))) ∧
    (∃ (c : Cmd) (s : State), (s.takes 0x0410 c = true) ∧
      ((bit (wd c.words 0) 10 = true → s.hasPort (fld (wd c.words 0) 0 10) = true))) :=
  ⟨⟨pk 0x0401 [0, 0, 1, 5, 6], p8, by decide +kernel⟩,
   ⟨pk 0x040E [0, 0, 0, 7, 1, 2, 3], base, by decide +kernel⟩,
   ⟨pk 0x040D [8, 0, 93, 3], base, by decide +kernel⟩,
   ⟨pk 0x040F [3, 0, 2, 16909060, 5], base, by decide +kernel⟩,
   ⟨pk 0x0410 [8 + 1024], base, by decide +kernel⟩⟩

/-- Inputs that meet the hypotheses of each clause of Obligations.TableEntryChangesComplete. -/
theorem witness_TableEntryChangesComplete :
    (∃ (c : Cmd) (s : State), (epochOf c = 0) ∧ (s.takes 0x0402 c = true) ∧ (imageRo (emImage c) = false) ∧
      ((entOf (emImage c)).ftype ≠ 3) ∧ ((entOf (emImage c)).kt.toNat ≤ 2) ∧
      (((entOf (emImage c)).route = false → s.destRefused (entOf (emImage c)).ftype.toNat (entOf (emImage c)).fid.toNat 0 = none)) ∧
      (s.copiesOfKey 0 (entOf (emImage c)).kt (entOf (emImage c)).key = []) ∧
      (match s.makePlace 0 (entOf (emImage c)).kt (entOf (emImage c)).key with | some (u, l) => decide (True) | _ => false) = true) ∧
    (∃ (c : Cmd) (s : State), (epochOf c = 0) ∧ (s.takes 0x0402 c = true) ∧ (imageRo (emImage c) = false) ∧
      ((entOf (emImage c)).ftype ≠ 3) ∧ ((entOf (emImage c)).kt.toNat ≤ 2) ∧
      (((entOf (emImage c)).route = false → s.destRefused (entOf (emImage c)).ftype.toNat (entOf (emImage c)).fid.toNat 0 = none)) ∧
      (pendingSlots (s.copiesOfKey 0 (entOf (emImage c)).kt (entOf (emImage c)).key) = []) ∧ (bit (wd c.words 0) 0 = true) ∧
      (match presentCopy (s.copiesOfKey 0 (entOf (emImage c)).kt (entOf (emImage c)).key) with | some (loc, x) => decide ((s.tbl.em.at? loc = some x)) | _ => false) = true) ∧
    (∃ (c : Cmd) (s : State), (epochOf c = 0) ∧ (s.takes 0x0403 c = true) ∧ ((keyWords c.words).fst.toNat ≤ 2) ∧
      (pendingSlots (s.copiesOfKey 0 (keyWords c.words).fst (keyWords c.words).snd) = []) ∧
      (match presentCopy (s.copiesOfKey 0 (keyWords c.words).fst (keyWords c.words).snd) with | some (loc, x) => decide ((s.tbl.em.at? loc = some x)) | _ => false) = true) ∧
    (∃ (c : Cmd) (s : State), (epochOf c = 0) ∧
      (prefixBad (fld (wd c.words 0) 0 1) (fld (wd c.words 0) 1 8) (prefixOf (fld (wd c.words 0) 0 1) c.words) c.words = false) ∧
      (s.takes 0x0404 c = true) ∧ (s.destRefused (fld (wd c.words 6) 0 2) (fld (wd c.words 6) 2 18) 0 = none) ∧
      (fld (wd c.words 0) 1 8 = 0) ∧
      (s.prefixPending (fld (wd c.words 0) 0 1) (fld (wd c.words 0) 1 8) (prefixOf (fld (wd c.words 0) 0 1) c.words) = []) ∧
      ((s.shortThere (fld (wd c.words 0) 0 1) (fld (wd c.words 0) 1 8) (prefixOf (fld (wd c.words 0) 0 1) c.words) = true → bit (wd c.words 0) 9 = true))) ∧
    (∃ (c : Cmd) (s : State), (epochOf c = 0) ∧
      (prefixBad (fld (wd c.words 0) 0 1) (fld (wd c.words 0) 1 8) (prefixOf (fld (wd c.words 0) 0 1) c.words) c.words = false) ∧
      (s.takes 0x0404 c = true) ∧ (s.destRefused (fld (wd c.words 6) 0 2) (fld (wd c.words 6) 2 18) 0 = none) ∧
      (1 ≤ fld (wd c.words 0) 1 8) ∧ (fld (wd c.words 0) 1 8 ≤ 16) ∧
      (s.prefixPending (fld (wd c.words 0) 0 1) (fld (wd c.words 0) 1 8) (prefixOf (fld (wd c.words 0) 0 1) c.words) = []) ∧
      ((s.shortThere (fld (wd c.words 0) 0 1) (fld (wd c.words 0) 1 8) (prefixOf (fld (wd c.words 0) 0 1) c.words) = true → bit (wd c.words 0) 9 = true)) ∧
      (((s.lpm (fld (wd c.words 0) 0 1)).putShadow { plen := fld (wd c.words 0) 1 8, bits := BitVec.ofNat 16 (directIdx (fld (wd c.words 0) 0 1) (prefixOf (fld (wd c.words 0) 0 1) c.words)), result := some (wd c.words 6) }).isSome = true)) ∧
    (∃ (c : Cmd) (s : State), (epochOf c = 0) ∧
      (prefixBad (fld (wd c.words 0) 0 1) (fld (wd c.words 0) 1 8) (prefixOf (fld (wd c.words 0) 0 1) c.words) c.words = false) ∧
      (s.takes 0x0404 c = true) ∧ (s.destRefused (fld (wd c.words 6) 0 2) (fld (wd c.words 6) 2 18) 0 = none) ∧
      (16 < fld (wd c.words 0) 1 8) ∧ (s.lengthsFull (fld (wd c.words 0) 0 1) (fld (wd c.words 0) 1 8) = false) ∧
      (s.copiesOfKey (1 + fld (wd c.words 0) 0 1) 0 (poolKey (fld (wd c.words 0) 0 1) (fld (wd c.words 0) 1 8) (prefixOf (fld (wd c.words 0) 0 1) c.words)) = []) ∧
      (match s.makePlace (1 + fld (wd c.words 0) 0 1) 0 (poolKey (fld (wd c.words 0) 0 1) (fld (wd c.words 0) 1 8) (prefixOf (fld (wd c.words 0) 0 1) c.words)) with | some (u, l) => decide (True) | _ => false) = true) ∧
    (∃ (c : Cmd) (s : State), (epochOf c = 0) ∧
      (prefixBad (fld (wd c.words 0) 0 1) (fld (wd c.words 0) 1 8) (prefixOf (fld (wd c.words 0) 0 1) c.words) c.words = false) ∧
      (s.takes 0x0405 c = true) ∧ (fld (wd c.words 0) 1 8 = 0) ∧
      (s.prefixPending (fld (wd c.words 0) 0 1) (fld (wd c.words 0) 1 8) (prefixOf (fld (wd c.words 0) 0 1) c.words) = []) ∧
      (s.shortThere (fld (wd c.words 0) 0 1) (fld (wd c.words 0) 1 8) (prefixOf (fld (wd c.words 0) 0 1) c.words) = true)) ∧
    (∃ (c : Cmd) (s : State), (epochOf c = 0) ∧
      (prefixBad (fld (wd c.words 0) 0 1) (fld (wd c.words 0) 1 8) (prefixOf (fld (wd c.words 0) 0 1) c.words) c.words = false) ∧
      (s.takes 0x0405 c = true) ∧ (1 ≤ fld (wd c.words 0) 1 8) ∧ (fld (wd c.words 0) 1 8 ≤ 16) ∧
      (s.prefixPending (fld (wd c.words 0) 0 1) (fld (wd c.words 0) 1 8) (prefixOf (fld (wd c.words 0) 0 1) c.words) = []) ∧
      (s.shortThere (fld (wd c.words 0) 0 1) (fld (wd c.words 0) 1 8) (prefixOf (fld (wd c.words 0) 0 1) c.words) = true) ∧
      (((s.lpm (fld (wd c.words 0) 0 1)).putShadow { plen := fld (wd c.words 0) 1 8, bits := BitVec.ofNat 16 (directIdx (fld (wd c.words 0) 0 1) (prefixOf (fld (wd c.words 0) 0 1) c.words)), result := none }).isSome = true)) ∧
    (∃ (c : Cmd) (s : State), (epochOf c = 0) ∧
      (prefixBad (fld (wd c.words 0) 0 1) (fld (wd c.words 0) 1 8) (prefixOf (fld (wd c.words 0) 0 1) c.words) c.words = false) ∧
      (s.takes 0x0405 c = true) ∧ (16 < fld (wd c.words 0) 1 8) ∧
      (pendingSlots (s.copiesOfKey (1 + fld (wd c.words 0) 0 1) 0 (poolKey (fld (wd c.words 0) 0 1) (fld (wd c.words 0) 1 8) (prefixOf (fld (wd c.words 0) 0 1) c.words))) = []) ∧
      (match presentCopy (s.copiesOfKey (1 + fld (wd c.words 0) 0 1) 0 (poolKey (fld (wd c.words 0) 0 1) (fld (wd c.words 0) 1 8) (prefixOf (fld (wd c.words 0) 0 1) c.words))) with | some (loc, x) => decide (((s.lpm (fld (wd c.words 0) 0 1)).pool.at? loc = some x)) | _ => false) = true) :=
  ⟨⟨pk 0x0402 (emw 99 8 0), base, by decide +kernel⟩,
   ⟨pk 0x0402 (emw 77 8 0 1), base, by decide +kernel⟩,
   ⟨pk 0x0403 (ek 77 0), base, by decide +kernel⟩,
   ⟨pk 0x0404 (lw 0 0 (v4 0) dst), p8, by decide +kernel⟩,
   ⟨pk 0x0404 (lw 0 12 (v4 167772160) dst 1), base, by decide +kernel⟩,
   ⟨pk 0x0404 (lw 0 24 (v4 167838464) dst), base, by decide +kernel⟩,
   ⟨pk 0x0405 (ld 0 0 (v4 0)), base, by decide +kernel⟩,
   ⟨pk 0x0405 (ld 0 12 (v4 167772160)), base, by decide +kernel⟩,
   ⟨pk 0x0405 (ld 0 24 (v4 167838208)), base, by decide +kernel⟩⟩

/-- Inputs that meet the hypotheses of each clause of Obligations.TableObjectAndSearchRowsComplete. -/
theorem witness_TableObjectAndSearchRowsComplete :
    (∃ (c : Cmd) (s : State), (s.takes 0x0409 c = true) ∧ (fld (wd c.words 0) 0 2 ≠ 3) ∧
      (fld (wd c.words 0) 2 18 ≤ objMax (fld (wd c.words 0) 0 2)) ∧
      (usedOk (objUsed (fld (wd c.words 0) 0 2)) (List.drop 2 c.words) = true) ∧
      (s.objFields (fld (wd c.words 0) 0 2) (epochOf c) (List.drop 2 c.words) = none) ∧
      (tget? (s.objs (fld (wd c.words 0) 0 2)) (fld (wd c.words 0) 2 18) = none) ∧
      ((fld (wd c.words 0) 0 2 = 1 → s.groupOverlaps (List.drop 2 c.words) = false)) ∧ (epochOf c = 0)) ∧
    (∃ (c : Cmd) (s : State), (s.takes 0x0409 c = true) ∧ (fld (wd c.words 0) 0 2 ≠ 3) ∧
      (fld (wd c.words 0) 2 18 ≤ objMax (fld (wd c.words 0) 0 2)) ∧
      (usedOk (objUsed (fld (wd c.words 0) 0 2)) (List.drop 2 c.words) = true) ∧
      (s.objFields (fld (wd c.words 0) 0 2) (epochOf c) (List.drop 2 c.words) = none) ∧
      (tget? (s.objs (fld (wd c.words 0) 0 2)) (fld (wd c.words 0) 2 18) = none) ∧
      ((fld (wd c.words 0) 0 2 = 1 → s.groupOverlaps (List.drop 2 c.words) = false)) ∧ (epochOf c ≠ 0) ∧
      (okOf Nat Bool (s.slotFor (epochOf c))).isSome = true) ∧
    (∃ (c : Cmd) (s : State), (s.takes 0x040A c = true) ∧ (fld (wd c.words 0) 0 2 ≠ 3) ∧
      (fld (wd c.words 0) 2 18 ≤ objMax (fld (wd c.words 0) 0 2)) ∧
      (s.tableRefs { kind := fld (wd c.words 0) 0 2, id := fld (wd c.words 0) 2 18 } = 0) ∧ (epochOf c = 0) ∧
      ((tget? (s.objs (fld (wd c.words 0) 0 2)) (fld (wd c.words 0) 2 18)).any fun o => decide ((o.freeing = none) ∧ (o.mark.stage = 0))) = true) ∧
    (∃ (c : Cmd) (s : State), (s.takes 0x040B c = true) ∧ (fld (wd c.words 0) 0 2 ≠ 3) ∧
      (fld (wd c.words 0) 2 18 ≤ objMax (fld (wd c.words 0) 0 2)) ∧
      (tget? (s.objs (fld (wd c.words 0) 0 2)) (fld (wd c.words 0) 2 18)).isSome = true) ∧
    (∃ (c : Cmd) (s : State), (s.takes 0x040B c = true) ∧ (fld (wd c.words 0) 0 2 ≠ 3) ∧
      (fld (wd c.words 0) 2 18 ≤ objMax (fld (wd c.words 0) 0 2)) ∧
      (tget? (s.objs (fld (wd c.words 0) 0 2)) (fld (wd c.words 0) 2 18) = none)) ∧
    (∃ (c : Cmd) (s : State), (s.takes 0x040C c = true) ∧ (epochOf c = 0) ∧
      ((bit (wd c.words 2) 17 = true → s.objRefused 0 (fld (wd c.words 2) 0 17) 0 = none)) ∧
      ((tget s.tbl.members (fld (wd c.words 0) 0 16) { }).staged = none) ∧
      ((List.find? (fun g => decide (g.snd.base ≤ fld (wd c.words 0) 0 16) && decide (fld (wd c.words 0) 0 16 < g.snd.base + g.snd.size)) s.tbl.groups).any fun g => decide ((s.objRefused 1 g.fst 0 = none))) = true) ∧
    (∃ (c : Cmd) (s : State), (s.takes 0x0406 c = true) ∧ (fld (wd c.words 0) 0 2 = 0) ∧
      ((keyWords c.words).fst.toNat ≤ 2) ∧ (BitVec.toNat (wd c.words 4) &&& 4294905600 = 0) ∧ (wd c.words 5 = 0)) ∧
    (∃ (c : Cmd) (s : State), (s.takes 0x0406 c = true) ∧ ((fld (wd c.words 0) 0 2 = 1 ∨ fld (wd c.words 0) 0 2 = 2)) ∧
      (bit (wd c.words 0) 12 = true) ∧
      (prefixBad (fld (wd c.words 0) 0 2 - 1) (fld (wd c.words 0) 4 8) (prefixOf (fld (wd c.words 0) 0 2 - 1) c.words) c.words = false)) ∧
    (∃ (c : Cmd) (s : State), (s.takes 0x0406 c = true) ∧ ((fld (wd c.words 0) 0 2 = 1 ∨ fld (wd c.words 0) 0 2 = 2)) ∧
      (bit (wd c.words 0) 12 = false) ∧
      (prefixBad (fld (wd c.words 0) 0 2 - 1) (famWidth (fld (wd c.words 0) 0 2 - 1)) (prefixOf (fld (wd c.words 0) 0 2 - 1) c.words) c.words = false)) ∧
    (∃ (c : Cmd) (s : State), (s.takes 0x0407 c = true) ∧ (epochOf c = 0) ∧ (fld (wd c.words 0) 0 2 ≠ 3) ∧
      (1 ≤ fld (wd c.words 0) 6 8) ∧ (fld (wd c.words 0) 6 8 ≤ 128) ∧ (bit (wd c.words 0) 4 = true) ∧
      (bit (wd c.words 0) 5 = false) ∧ ((∃ i, i < 4 ∧ thas s.tbl.cursors (4 * fld (wd c.words 0) 0 2 + i) = false))) ∧
    (∃ (c : Cmd) (s : State), (s.takes 0x0407 c = true) ∧ (epochOf c = 0) ∧ (fld (wd c.words 0) 0 2 ≠ 3) ∧
      (1 ≤ fld (wd c.words 0) 6 8) ∧ (fld (wd c.words 0) 6 8 ≤ 128) ∧ (bit (wd c.words 0) 4 = false) ∧
      (bit (wd c.words 0) 5 = true)) ∧
    (∃ (c : Cmd) (s : State), (s.takes 0x0408 c = true) ∧ (epochOf c = 0) ∧ (s.port? (portOf c)).isSome = true) :=
  ⟨⟨pk 0x0409 ([2 + 4 * 9, 0] ++ List.replicate 16 0), base, by decide +kernel⟩,
   ⟨pk 0x0409 [0 + 4 * 9, 7, 8, 0], base, by decide +kernel⟩,
   ⟨pk 0x040A [2 + 4 * 5, 0], base, by decide +kernel⟩,
   ⟨pk 0x040B [2 + 4 * 5], base, by decide +kernel⟩,
   ⟨pk 0x040B [2 + 4 * 6], base, by decide +kernel⟩,
   ⟨pk 0x040C [16, 0, 6 + 2 ^ 17], base, by decide +kernel⟩,
   ⟨pk 0x0406 [0, 0, 77, 0, 0, 0], base, by decide +kernel⟩,
   ⟨pk 0x0406 ([1 + 16 * 12 + 4096, 0] ++ v4 167772160), base, by decide +kernel⟩,
   ⟨pk 0x0406 ([1, 0] ++ v4 167838211), base, by decide +kernel⟩,
   ⟨pk 0x0407 [0 + 16 + 64 * 2, 0], base, by decide +kernel⟩,
   ⟨pk 0x0407 [2 + 32 + 64 * 3, 0], base, by decide +kernel⟩,
   ⟨pk 0x0408 [8 + 1024, 0, 0], base, by decide +kernel⟩⟩

end TableEntries

namespace TableRows

def emw (key fid : Nat) (kt : Nat) (r : Nat := 0) : List Nat := [r, 0, key, 0, fid * 1024, kt * 2^26]
def ek (key kt : Nat) : List Nat := [0, 0, key, 0, kt * 2^12]
def lw (fam len : Nat) (p : List Nat) (r : Nat) (rep : Nat := 0): List Nat := [fam + 2 * len + 512 * rep, 0] ++ p ++ [r]
def ld (fam len : Nat) (p : List Nat) : List Nat := [fam + 2 * len, 0] ++ p
def v4 (a : Nat) : List Nat := [a, 0, 0, 0]
def v6 (a : Nat) : List Nat := [a, 0x12, 0, 0]
def dst : Nat := 8 * 4
def base := runAll p8 [.emInsert (pk 0x0402 (emw 77 8 0)), .emInsert (pk 0x0402 (emw 78 8 1)),
  .lpmInsert (pk 0x0404 (lw 0 0 (v4 0) dst)), .lpmInsert (pk 0x0404 (lw 0 12 (v4 0x0A000000) dst)), .lpmInsert (pk 0x0404 (lw 0 24 (v4 0x0A010200) dst)),
  .lpmInsert (pk 0x0404 (lw 1 0 (v4 0) dst)), .lpmInsert (pk 0x0404 (lw 1 12 (v4 0x20000000) dst)), .lpmInsert (pk 0x0404 (lw 1 64 (v6 0x20010db8) dst)),
  .tblObjWrite (pk 0x0409 ([2 + 4 * 5, 0] ++ List.replicate 16 0)), .tblObjWrite (pk 0x0409 ([0 + 4 * 6, 0, 8, 0])), .tblObjWrite (pk 0x0409 ([1 + 4 * 7, 0, 16 + 4 * 65536, 0])),
  .ecmpMemberWrite (pk 0x040C [17, 0, 6 + 2^17])]
def inUse : State := runAll { base with arrivals := [{ id := 3, objs := [⟨2, 5⟩]}]} [.tblObjDelete (pk 0x040A [2 + 4 * 5, 0])]
def locOf (s : State) (t : Nat) : Nat := ((s.ht t).all.head?.map (·.1)).getD 0
def aging (e : Ent → Ent) (s : State) : State := { s with tbl := { s.tbl with sweep := some [], em := { s.tbl.em with locs := s.tbl.em.locs.map fun x => (x.1, e x.2) }}}
def visitedAll (s : State) : State := { s with tbl := { s.tbl with sweep := some (s.tbl.em.locs.map fun x => (x.2.kt, x.2.key)) }}
def lq : State := { base with tbl := { base.tbl with copies := [(1, { learnQ := [{ kt := 0, key := 123, port := 8 }] }), (2, { rebuilding := some none, borrowFrom := some 1})] } }
def stashed : State := { base with tbl := { base.tbl with em := { stash := [(3, { key := 5, fid := 8 })] } } }
def cleaning : State := { base with cif := { base.cif with epochs := [{ epoch := 7, state := .cleaning, slot := none}] } }
def flushing : State := noRes (runAll base [.tblFlush (pk 0x0408 [8 + 1024, 0, 0])])

/-- Inputs that meet the hypotheses of each clause of Obligations.TableTasksComplete. -/
theorem witness_TableTasksComplete :
    (∃ (s : State) (loc : Word),
      ((s.tbl.sweep).any fun seen => decide (((s.tbl.em.at? (BitVec.toNat loc)).any fun e => decide ((e.static = false) ∧ (e.moving = false) ∧ (e.stage = 0) ∧ ((e.kt, e.key) ∈ seen))) = true)) = true) ∧
    (∃ (s : State) (loc : Word),
      ((s.tbl.sweep).any fun seen => decide (((s.tbl.em.at? (BitVec.toNat loc)).any fun e => decide ((e.static = false) ∧ (e.moving = false) ∧ (e.stage = 0) ∧ ((¬ (e.kt, e.key) ∈ seen)))) = true)) = true) ∧
    (∃ (region : Nat) (s : State), region < 4 ∧
      (List.find? (fun q => s.finishMoves.tbl.flushes.all fun f => decide (f.port ≠ q.port)) (s.finishMoves.copyOf region).learnQ).isSome = true) ∧
    (∃ (family : Nat) (idx : Nat) (s : State), family < 2 ∧ idx < 64 ∧
      ((tget? (s.lpm family).shadow idx).any fun x => decide ((x.staged = none))) = true) ∧
    (∃ (s : State) (epoch : BitVec 16),
      ((s.epoch? epoch.toNat).any fun x => decide ((x.state = EpochState.cleaning))) = true) ∧
    (∃ (kind : Nat) (s : State) (id : Nat), kind < 3 ∧ (id ≤ objMax kind) ∧ (s.inflight { kind := kind, id := id } = 0) ∧
      ((tget? (s.objs kind) id).any fun o => decide ((o.freeing ≠ none))) = true) ∧
    (∃ (port : Nat) (s : State), port < 1024 ∧ (List.find? (fun f => decide (f.port = port)) s.tbl.flushes).isSome = true) ∧
    (∃ (region : Nat) (s : State), region < 4 ∧
      (((s.copyOf region).rebuilding).any fun m => decide (((s.copyOf region).borrowFrom).isSome = true)) = true) ∧
    (∃ (region : Nat) (s : State), region < 4 ∧
      (((s.copyOf region).rebuilding = none ∨ (s.copyOf region).borrowFrom = none))) ∧
    (∃ (s : State) (table : Nat) (idx : Nat) (e : Ent) (l : Nat), table < 3 ∧ idx < stashSize table ∧
      (s.ht table).at? (stashBase + idx) = some e ∧
      ((s.ht table).freeSlot (s.buckets table e.kt e.key).1 = some l ∨ ((s.ht table).freeSlot (s.buckets table e.kt e.key).1 = none ∧ (s.ht table).freeSlot (s.buckets table e.kt e.key).2 = some l))) :=
  ⟨⟨visitedAll base, w (locOf base 0), by decide +kernel⟩,
   ⟨aging id base, w (locOf base 0), by decide +kernel⟩,
   ⟨1, lq, by decide +kernel⟩,
   ⟨1, 0, base, by decide +kernel⟩,
   ⟨cleaning, 7, by decide +kernel⟩,
   ⟨2, { inUse with arrivals := [] }, 5, by decide +kernel⟩,
   ⟨8, flushing, by decide +kernel⟩,
   ⟨2, lq, by decide +kernel⟩,
   ⟨3, base, by decide +kernel⟩,
   ⟨stashed, 0, 3, { key := 5, fid := 8 }, 110472, by decide +kernel⟩⟩

end TableRows

namespace Buffers

def q8 : Nat := 128
def kk : Pkt := { id := 7, ingress := some 8, len := 200, egress := some 8, qidx := 2, data := List.replicate 196 3 }
def qd : Queue := { granary := [kk], grDepth := 2, avg := 6, peak := 9, spilled := { val := 3 }, reserveUsed := 2 }
def arr (s : State) (k : Pkt) : State := { s with arrivals := [k] }
def gl : Queue := { glacier := [{ kk with block := some (0, 3)}], spilling := true, grDepth := 0 }
def ji (det inst mode : Nat) (pat : BitVec 64 := 3) (a : Word := 0) : Injection := { det := det, inst := inst, mode := mode, count := 0, period := 0, address := a, duration := 0, pattern := pat, check := 0, aim := det, due := true }
def wj (l : List Injection) (s : State) : State := { s with err := { s.err with injections := l } }

/-- Inputs that meet the hypotheses of each clause of Obligations.BufferCommandsComplete. -/
theorem witness_BufferCommandsComplete :
    (∃ (c : Cmd) (s : State), (s.takes 0x0501 c = true) ∧ (1 ≤ fld (wd c.words 1) 0 16) ∧
      (fld (wd c.words 1) 0 16 ≤ 32768) ∧ (wd c.words 3 ≠ 0) ∧
      (0 ≤ 327680 - ↑(List.length (s.region (fld (wd c.words 0) 0 2)).retired) - ↑(fld (wd c.words 1) 0 16) - ↑(fld (wd c.words 2) 0 16) - ↑(s.portReserves (fld (wd c.words 0) 0 2)))) ∧
    (∃ (c : Cmd) (s : State), (s.takes 0x0502 c = true) ∧ (fld (wd c.words 3) 0 20 < fld (wd c.words 2) 0 20) ∧
      ((s.port? (portOf c)).any fun v => decide ((0 ≤ (s.setPort (portOf c) { v with portReserve := BitVec.ofNat 14 (fld (wd c.words 1) 0 14) }).sharedSize (laneRegion (portOf c))))) = true) ∧
    (∃ (c : Cmd) (s : State), (s.takes 0x0503 c = true) ∧ (s.hasPort (queuePort (fld (wd c.words 0) 0 14)) = true) ∧
      (1 ≤ fld (wd c.words 1) 0 12) ∧ (fld (wd c.words 1) 12 4 ≤ 9) ∧ (64 ≤ fld (wd c.words 2) 0 20) ∧
      (fld (wd c.words 2) 0 20 ≤ 327680) ∧ (64 ≤ fld (wd c.words 3) 0 16) ∧ (fld (wd c.words 3) 0 16 ≤ 16384) ∧
      (fld (wd c.words 3) 0 16 ≤ fld (wd c.words 2) 0 20) ∧ (1 ≤ fld (wd c.words 3) 16 15) ∧
      (fld (wd c.words 3) 16 15 ≤ 20000) ∧
      (0 ≤ (s.setQueue (fld (wd c.words 0) 0 14) { s.queue (fld (wd c.words 0) 0 14) with reserve := BitVec.ofNat 12 (fld (wd c.words 1) 0 12) }).sharedSize (queueRegion (fld (wd c.words 0) 0 14)))) ∧
    (∃ (c : Cmd) (s : State), (s.takes 0x0504 c = true) ∧ (fld (wd c.words 0) 0 6 ≠ 0) ∧ (fld (wd c.words 0) 16 4 ≠ 0) ∧
      (fld (wd c.words 1) 0 24 ≤ fld (wd c.words 2) 0 24) ∧ (fld (wd c.words 3) 0 9 ≤ 256)) ∧
    (∃ (c : Cmd) (s : State), (s.takes 0x0505 c = true) ∧ (1 ≤ fld (wd c.words 1) 0 15) ∧ (fld (wd c.words 1) 0 15 ≤ 5596) ∧
      (fld (wd c.words 1) 0 15 ≤ fld (wd c.words 2) 0 15) ∧ (fld (wd c.words 2) 0 15 ≤ 22384)) ∧
    (∃ (c : Cmd) (s : State), (s.takes 0x0506 c = true)) ∧
    (∃ (c : Cmd) (s : State), (s.takes 0x0507 c = true) ∧ (s.hasPort (queuePort (fld (wd c.words 0) 0 14)) = true)) ∧
    (∃ (c : Cmd) (s : State), (s.takes 0x0508 c = true)) :=
  ⟨⟨pk 0x0501 [1, 4096, 10, 5], p8, by decide +kernel⟩,
   ⟨pk 0x0502 [8, 50 + 3 * 65536, 1024, 700], p8, by decide +kernel⟩,
   ⟨pk 0x0503 [130, 8 + 4096 * 5 + 65536, 4096, 1024 + 65536 * 900, 33751553], p8, by decide +kernel⟩,
   ⟨pk 0x0504 [196611, 5, 50, 256 + 512], ready, by decide +kernel⟩,
   ⟨pk 0x0505 [5, 100, 200], ready, by decide +kernel⟩,
   ⟨pk 0x0506 [1], p8, by decide +kernel⟩,
   ⟨pk 0x0507 [130 + 2147483648], p8.setQueue 130 qd, by decide +kernel⟩,
   ⟨pk 0x0508 [1], ready, by decide +kernel⟩⟩

/-- Inputs that meet the hypotheses of each clause of Obligations.AdmissionCompletes. -/
theorem witness_AdmissionCompletes :
    (∃ (s : State),
      (match s.arrivals with | [k] => decide ((queueRegion k.queueNo < 4) ∧ (s.isUp (queuePort k.queueNo) = true) ∧ ((k.known = true → k.edited ≤ (s.port (queuePort k.queueNo)).maxFrame.toNat)) ∧ ((s.queue k.queueNo).spilling = false) ∧ ((s.queue k.queueNo).wredOf k.colour = 0) ∧ (((s.queue k.queueNo).spillEn = true → (s.queue k.queueNo).grDepth + cellsOf k.len ≤ (s.queue k.queueNo).spillThresh.toNat)) ∧ (cellsOf k.len ≤ (s.queue k.queueNo).reserve.toNat - (s.queue k.queueNo).reserveUsed)) | _ => false) = true) ∧
    (∃ (s : State),
      (match s.arrivals with | [k] => decide ((queueRegion k.queueNo < 4) ∧ (s.isUp (queuePort k.queueNo) = false)) | _ => false) = true) ∧
    (∃ (region : Nat), region < 4) ∧
    (∃ (region : Nat), (4 ≤ region)) :=
  ⟨⟨arr p8u kk, by decide +kernel⟩,
   ⟨arr p8 kk, by decide +kernel⟩,
   ⟨3, by decide +kernel⟩,
   ⟨4, by decide +kernel⟩⟩

/-- Inputs that meet the hypotheses of each clause of Obligations.GlacierRowsComplete. -/
theorem witness_GlacierRowsComplete :
    (∃ (q : Nat) (s : State), q < 16384 ∧ (s.isUp (queuePort q) = true) ∧
      ((s.queue q).grDepth < (s.queue q).refillTarget.toNat) ∧
      (match (s.queue q).glacier with | k :: ks => decide ((s.expired q k = false) ∧ (k.len ≤ 2097152) ∧ (k.len ≤ (s.glacier (regionDie (queueRegion q))).refillCredit) ∧ (cellsOf k.len ≤ (s.region (queueRegion q)).refillReserve.toNat - (s.region (queueRegion q)).refillUsed)) | _ => false) = true) ∧
    (∃ (q : Nat) (s : State) (read : BlockRead), q < 16384 ∧
      ((∀ j ∈ s.err.injections, (j.det ≠ dGlacierCe ∧ (j.det ≠ dGlacierData ∧ j.det ≠ dGlacierDesc)))) ∧
      ((List.find? (fun x => x.refilling) (s.queue q).granary).any fun k => decide ((read ≠ BlockRead.uncorrectable))) = true) ∧
    (∃ (die : Nat) (pool : Nat) (s : State), die < 2 ∧ pool < 4 ∧ (pool < (s.glacier die).pools.length)) :=
  ⟨⟨130, p8u.setQueue 130 gl, by decide +kernel⟩,
   ⟨130,
     { p8u.setQueue 130 { granary := [{ kk with charge := { refill := 2 }, block := some (0, 3), refilling := true }] } with glaciers := [(0, { pools := [{ free := 100, cache := 5, stack := 50, allocated := [(3, ())], fetching := true }, { free := 100, cache := 3000, stack := 50, writing := true }] })] },
     BlockRead.clean, by decide +kernel⟩,
   ⟨1, 3, p8u.setQueue 130 gl, by decide +kernel⟩⟩

end Buffers

namespace Scheduling

def sh : Shaper := { en := true, rate := 1000, burst := 500, credit := 77 }
def gp (g : Gates) : State := withPort { ready with time := { ready.time with ns := 5000, beat := 3 } } 8 { up1 with gates := g }
def tk : Takeover := { at_ := 90000, count := 2, cycle := 4000, late := 0 }
def g0 : Gates := { en := true, bank1 := [(0, { states := 3, interval := 2000}), (1, { states := 1, interval := 2000})], bank0 := [(4, { states := 9, interval := 10})] }
def g1 : Gates := { g0 with pending := some tk }
def g2 : Gates := { g0 with pending := some { tk with at_ := 4000 } }
def kk : Pkt := { id := 7, ingress := some 8, len := 200, egress := some 8, qidx := 2, data := List.replicate 196 3 }
def qk : Queue := { granary := [kk], headF := some 5, grDepth := 2, reserveUsed := 2 }

/-- Inputs that meet the hypotheses of each clause of Obligations.SchedulingCommandsComplete. -/
theorem witness_SchedulingCommandsComplete :
    (∃ (c : Cmd) (s : State), (s.takes 0x0601 c = true) ∧ (-32 ≤ signed 7 (fld (wd c.words 1) 0 7)) ∧
      (14 ≤ fld (wd c.words 1) 10 5) ∧ (fld (wd c.words 1) 10 5 ≤ 30) ∧ ((bit (wd c.words 1) 7 = true → wd c.words 2 ≠ 0)) ∧
      (s.port? (portOf c)).isSome = true) ∧
    (∃ (c : Cmd) (s : State), (s.takes 0x0602 c = true) ∧ (s.hasPort (queuePort (fld (wd c.words 0) 0 14)) = true) ∧
      (1 ≤ fld (wd c.words 1) 0 10) ∧ ((bit (wd c.words 1) 10 = true → wd c.words 2 ≠ 0))) ∧
    (∃ (c : Cmd) (s : State), (s.takes 0x0608 c = true) ∧ (fld (wd c.words 0) 16 4 ≠ 0) ∧
      (-32 ≤ signed 7 (fld (wd c.words 1) 5 7)) ∧ ((fld (wd c.words 1) 0 2 = 1 → wd c.words 4 = 0)) ∧
      ((fld (wd c.words 1) 0 2 = 2 → BitVec.toNat (wd c.words 2) ≤ BitVec.toNat (wd c.words 4))) ∧
      ((bit (wd c.words 1) 4 = true → fld (wd c.words 1) 0 2 = 3))) ∧
    (∃ (c : Cmd) (s : State), (s.takes 0x060A c = true) ∧ (s.hasPort (queuePort (fld (wd c.words 0) 0 14)) = true)) ∧
    (∃ (c : Cmd) (s : State), (s.takes 0x0609 c = true) ∧
      ((s.meter (fld (wd c.words 0) 16 2) (fld (wd c.words 0) 0 16)).green.frozen = false) ∧
      ((s.meter (fld (wd c.words 0) 16 2) (fld (wd c.words 0) 0 16)).yellow.frozen = false) ∧
      ((s.meter (fld (wd c.words 0) 16 2) (fld (wd c.words 0) 0 16)).red.frozen = false)) :=
  ⟨⟨pk 0x0601 [8, 20 + 128 + 256 + 512 + 1024 * 20, 1000, 600, 9], p8, by decide +kernel⟩,
   ⟨pk 0x0602 [130, 77 + 1024, 5, 600], p8, by decide +kernel⟩,
   ⟨pk 0x0608 [5 + 196608, 3 + 16 + 32 * 20, 1000, 600, 9, 8], p8, by decide +kernel⟩,
   ⟨pk 0x060A [130], p8u, by decide +kernel⟩,
   ⟨pk 0x0609 [5 + 2147483648], { p8 with meters := [(5, { mode := 1, green := { val := 4 } })] }, by decide +kernel⟩⟩

/-- Inputs that meet the hypotheses of each clause of Obligations.GateAndTickRowsComplete. -/
theorem witness_GateAndTickRowsComplete :
    (∃ (c : Cmd) (s : State), (s.takes 0x0603 c = true) ∧ (1 ≤ fld (wd c.words 1) 9 9) ∧
      (fld (wd c.words 1) 1 8 + fld (wd c.words 1) 9 9 ≤ 256) ∧
      ((∀ i, i < fld (wd c.words 1) 9 9 → (BitVec.toNat (wd c.words (2 + 2 * i)) < 65536 ∧ intervalOk (wd c.words (3 + 2 * i)) = true))) ∧
      ((s.port? (portOf c)).any fun v => decide ((v.gates.pending = none))) = true) ∧
    (∃ (c : Cmd) (s : State), (s.takes 0x0604 c = true) ∧ (1 ≤ fld (wd c.words 1) 9 9) ∧
      (fld (wd c.words 1) 1 8 + fld (wd c.words 1) 9 9 ≤ 256) ∧ (s.port? (portOf c)).isSome = true) ∧
    (∃ (c : Cmd) (s : State), (s.takes 0x0605 c = true) ∧ (1 ≤ fld (wd c.words 1) 0 9) ∧ (fld (wd c.words 1) 0 9 ≤ 256) ∧
      (1000 ≤ BitVec.toNat (wd c.words 2)) ∧ (BitVec.toNat (wd c.words 2) ≤ 4000000000) ∧
      (fld (wd c.words 5) 0 30 < s.time.beatLen) ∧
      (s.time.nextNs + 1000 ≤ (BitVec.toNat (wd c.words 3) + fld (wd c.words 4) 0 16 * 2 ^ 32) * s.time.beatLen + fld (wd c.words 5) 0 30) ∧
      ((s.port? (portOf c)).any fun v => decide ((((v.gates.entries (!v.gates.operBank) (fld (wd c.words 1) 0 9)).all fun e => decide (e.interval ≠ 0)) = true) ∧ (v.gates.pending = none))) = true) ∧
    (∃ (c : Cmd) (s : State), (s.takes 0x0606 c = true) ∧
      ((s.port? (portOf c)).any fun v => decide (((v.gates.pending).any fun tk => decide ((s.time.nextNs + 1000 ≤ tk.at_))) = true)) = true) ∧
    (∃ (c : Cmd) (s : State), (s.takes 0x0607 c = true) ∧ (s.port? (portOf c)).isSome = true) ∧
    (∃ (p : Nat) (s : State), p < 1024 ∧
      ((s.port? p).any fun v => decide (((v.gates.pending).any fun tk => decide ((tk.at_ ≤ s.time.ns))) = true)) = true) ∧
    (∃ (p : Nat) (s : State), p < 1024 ∧
      ((s.port? p).any fun v => decide (((v.gates.pending).any fun tk => decide ((s.time.ns < tk.at_))) = true)) = true) ∧
    (∃ (p : Nat) (s : State), p < 1024 ∧ ((s.port? p).any fun v => decide ((v.gates.pending = none))) = true) ∧
    (∃ (p : Nat) (s : State), p < 1024 ∧ (s.port? p).isSome = true) :=
  ⟨⟨pk 0x0603 [8, 2 * 3 + 512 * 2, 65535, 300, 15, 400], gp g0, by decide +kernel⟩,
   ⟨pk 0x0604 [8, 1 + 2 * 0 + 512 * 3], gp g0, by decide +kernel⟩,
   ⟨pk 0x0605 [8, 2, 4000, 50, 0, 20], gp g0, by decide +kernel⟩,
   ⟨pk 0x0606 [8], gp g1, by decide +kernel⟩,
   ⟨pk 0x0607 [8], gp g1, by decide +kernel⟩,
   ⟨8, gp g2, by decide +kernel⟩,
   ⟨8, gp g1, by decide +kernel⟩,
   ⟨8, gp g0, by decide +kernel⟩,
   ⟨8, gp g0, by decide +kernel⟩⟩

/-- Inputs that meet the hypotheses of each clause of Obligations.TransmitRowsComplete. -/
theorem witness_TransmitRowsComplete :
    (∃ (p : Nat) (i : Nat) (s : State), p < 1024 ∧ i < 16 ∧ (s.isUp p = true) ∧ ((s.port p).tx = none) ∧
      (s.txFenced p = false) ∧ ((∀ j, j < 16 → (j ≠ i → (s.queue (16 * p + j)).granary = []))) ∧
      ((s.port p).queuePaused s.time i = false) ∧ ((s.queue (16 * p + i)).shaper.ok = true) ∧
      ((s.port p).shaper.ok = true) ∧ ((s.port p).gates.en = false) ∧ ((s.port p).stormDrops i = false) ∧
      ((∀ j ∈ s.err.injections, (j.det ≠ dGranaryCe ∧ j.det ≠ dGranaryUe))) ∧
      ((∀ j ∈ s.err.injections, (j.det = dRegionState → (j.inst = laneRegion p → j.due = false)))) ∧
      (match (s.queue (16 * p + i)).granary with | k :: ks => decide ((k.known = true) ∧ (k.refilling = false) ∧ (s.expired (16 * p + i) k = false) ∧ (k.edited ≤ (s.port p).maxFrame.toNat)) | _ => false) = true) ∧
    (∃ (p : Nat) (s : State), p < 1024 ∧ ((s.isUp p = false ∨ ((s.port p).tx ≠ none ∨ s.txFenced p = true)))) ∧
    (∃ (p : Nat) (s : State), p < 1024 ∧ (s.hasPort p = true) ∧
      (((s.port p).tx).any fun x => decide ((x.stomp = none) ∧ (x.pkt.badEnd = none))) = true) ∧
    (∃ (p : Nat) (s : State), p < 1024 ∧ (s.hasPort p = true) ∧
      (((s.port p).tx).any fun x => decide ((x.stomp = none) ∧ (x.pkt.badEnd = none) ∧ (x.pkt.known = true) ∧ (x.pkt.refilling = false))) = true) ∧
    (∃ (p : Nat) (i : Nat) (s : State), p < 1024 ∧ i < 16 ∧ (s.hasPort p = true) ∧ (s.isUp p = false) ∧
      ((s.port p).drainPs ≤ s.time.runPs) ∧
      ((∀ j, j < i → ((s.queue (16 * p + j)).granary = [] ∧ (s.queue (16 * p + j)).glacier = []))) ∧
      (match (s.queue (16 * p + i)).granary with | k :: ks => decide (True) | _ => false) = true) ∧
    (∃ (p : Nat) (s : State), p < 1024 ∧
      ((s.port? p).any fun v => decide ((v.sampleQEn = true) ∧ (s.time.ns ≤ s.time.ns / 2 ^ v.sampleJ.toNat * 2 ^ v.sampleJ.toNat + 1) ∧ (v.sampleAt ≠ some (s.time.ns / 2 ^ v.sampleJ.toNat * 2 ^ v.sampleJ.toNat)))) = true) ∧
    (∃ (p : Nat) (s : State), p < 1024 ∧
      ((s.port? p).any fun v => decide (((v.sampleQEn = false ∨ (s.time.ns / 2 ^ v.sampleJ.toNat * 2 ^ v.sampleJ.toNat + 1 < s.time.ns ∨ v.sampleAt = some (s.time.ns / 2 ^ v.sampleJ.toNat * 2 ^ v.sampleJ.toNat)))))) = true) :=
  ⟨⟨8, 2, p8u.setQueue 130 qk, by decide +kernel⟩,
   ⟨1023, p8u.setQueue 130 qk, by decide +kernel⟩,
   ⟨8, withPort ready 8 { up1 with tx := some { pkt := kk, qidx := 2, startNs := 0 } }, by decide +kernel⟩,
   ⟨8, withPort ready 8 { up1 with tx := some { pkt := kk, qidx := 2, startNs := 0 } }, by decide +kernel⟩,
   ⟨8, 2, p8.setQueue 130 qk, by decide +kernel⟩,
   ⟨8, withPort ready 8 { up1 with sampleQEn := true }, by decide +kernel⟩,
   ⟨8, p8u.setQueue 130 qk, by decide +kernel⟩⟩

end Scheduling

namespace Reception

def rx0 : Rx := { pktId := 0, stampNs := 5, maxFrame := 0x2400 }
def rxs := { withPort ready 8 { up1 with rx := some rx0 } with nextPkt := 1 }
def ji (det inst mode : Nat) (pat : BitVec 64 := 3) (a : Word := 0) : Injection := { det := det, inst := inst, mode := mode, count := 0, period := 0, address := a, duration := 0, pattern := pat, check := 0, aim := det, due := true }
def wj (l : List Injection) (s : State) : State := { s with err := { s.err with injections := l } }
def dat : List Byte := (List.range 60).map fun n => BitVec.ofNat 8 (n * 7)
def pq : State := { p8u with parseQ := [{ id := 0, ingress := some 8, len := 64, data := dat }] }
def rdat (t : Nat) : List Byte := [0x03, 0x4C, 0x4E, 0, 0, 0, 1, 2, 3, 4, 5, 6, 0x88, 0xB5, 1, BitVec.ofNat 8 t] ++ List.replicate 44 0
def pz (u : Pause) (m : BitVec 2) (now : Nat := 0) : State := withPort { ready with time := { ready.time with ns := now } } 8 { up1 with fcMode := m, pause := [(2, u)], ing := [(2, 2000)] }
def ps (st : LaneState) : State := (withPort ready 8 { up1 with state := st })

/-- Inputs that meet the hypotheses of each clause of Obligations.ReceptionRowsComplete. -/
theorem witness_ReceptionRowsComplete :
    (∃ (p : Nat) (s : State), p < 1024 ∧
      ((s.port? p).any fun v => decide ((v.state = LaneState.up) ∧ (v.rx = none))) = true) ∧
    (∃ (p : Nat) (s : State), p < 1024 ∧
      ((s.port? p).any fun v => decide (((v.state ≠ LaneState.up ∨ v.rx ≠ none)))) = true) ∧
    (∃ (p : Nat) (s : State) (len : Nat) (data : List Byte) (check : FrameCheck), p < 1024 ∧
      ((s.port? p).any fun v => decide (((v.rx).any fun x => decide ((x.wait = none) ∧ (x.discard = false) ∧ (64 ≤ len) ∧ (len ≤ x.maxFrame) ∧ (len ≤ 16383) ∧ (s.isRiwen p data = false) ∧ (netAt data 12 2 ≠ 34824) ∧ (v.fcsHolds check = true))) = true)) = true) ∧
    (∃ (p : Nat) (s : State) (len : Nat) (check : FrameCheck), p < 1024 ∧
      ((s.port? p).any fun v => decide (((v.rx).any fun x => decide ((x.wait = none) ∧ (frameRow len x.maxFrame (v.fcsHolds check) ≠ 7))) = true)) = true) ∧
    (∃ (s : State) (n : Nat),
      ((List.find? (fun k => decide (k.id = n)) s.parseQ).any fun k => decide (((k.ingress).any fun p => decide ((s.rxFenced p = false) ∧ (s.blockedBy p n = false) ∧ ((∀ j ∈ s.err.injections, (j.det = dClusterState → (j.inst = laneCluster p → j.due = false)))))) = true)) = true) ∧
    (∃ (s : State) (n : Nat),
      ((List.find? (fun k => decide (k.id = n)) s.parseQ).any fun k => decide (((k.ingress).any fun p => decide ((s.rxFenced p = false) ∧ (s.blockedBy p n = false) ∧ ((s.clusterMeets p).snd = true) ∧ (thas s.err.failedClusters (laneCluster p) = false))) = true)) = true) ∧
    (∃ (s : State) (n : Nat),
      ((List.find? (fun k => decide (k.id = n)) s.parseQ).any fun k => decide (((k.ingress).any fun p => decide (((s.rxFenced p = true ∨ s.blockedBy p n = true)))) = true)) = true) ∧
    (∃ (s : State) (n : Nat), ((∀ k ∈ s.parseQ, k.id ≠ n)) ∧
      ((∀ e ∈ s.ports, (((e.snd.rx).all fun x => decide (x.pktId ≠ n)) = true)))) :=
  ⟨⟨8, p8u, by decide +kernel⟩,
   ⟨8, p8, by decide +kernel⟩,
   ⟨8, rxs, 64, dat, { fcs := true, symErrs := 0 }, by decide +kernel⟩,
   ⟨8, rxs, 8, { fcs := true, symErrs := 0 }, by decide +kernel⟩,
   ⟨pq, 0, by decide +kernel⟩,
   ⟨wj [ji 6 0 3] pq, 0, by decide +kernel⟩,
   ⟨{ pq with err := { pq.err with fences := List.map (fun n => (n, { mark := { det := 6, inst := n, startNs := 0, beat := 0, gen := 0, ns := 0 } })) (List.range 32) } },
     0, by decide +kernel⟩,
   ⟨p8u, 0, by decide +kernel⟩⟩

/-- Inputs that meet the hypotheses of each clause of Obligations.PauseRowsComplete. -/
theorem witness_PauseRowsComplete :
    (∃ (p : Nat) (n : Nat) (s : State), p < 1024 ∧ n < 8 ∧
      ((s.port? p).any fun v => decide (((tget v.pause n { }).until_ ≠ none) ∧ (v.paused s.time n = false))) = true) ∧
    (∃ (p : Nat) (n : Nat) (s : State), p < 1024 ∧ n < 8 ∧
      ((s.port? p).any fun v => decide ((v.wdDue s.time n = true))) = true) ∧
    (∃ (p : Nat) (n : Nat) (s : State), p < 1024 ∧ n < 8 ∧
      ((s.port? p).any fun v => decide ((((tget v.pause n { }).recovery).any fun r => decide ((v.recoveryOver s.time r = true))) = true)) = true) ∧
    (∃ (p : Nat) (n : Nat) (s : State), p < 1024 ∧ n < 8 ∧
      ((s.port? p).any fun v => decide (((tget v.pause n { }).xoff = true) ∧ (v.txRefresh ≠ 0) ∧ (v.state = LaneState.up) ∧ (v.fcMode ≠ 0) ∧ (v.tx = none) ∧ (((tget v.pause n { }).xoffSent).any fun at_ => decide ((at_ + v.txRefresh.toNat * v.quantumPs ≤ s.time.runPs))) = true)) = true) ∧
    (∃ (p : Nat) (n : Nat) (s : State), p < 1024 ∧ n < 8 ∧
      ((s.port? p).any fun v => decide ((v.paused s.time n = true))) = true) ∧
    (∃ (p : Nat) (n : Nat) (s : State), p < 1024 ∧ n < 8 ∧
      ((s.port? p).any fun v => decide ((v.wdDue s.time n = false))) = true) ∧
    (∃ (p : Nat) (n : Nat) (s : State), p < 1024 ∧ n < 8 ∧
      ((s.port? p).any fun v => decide ((((tget v.pause n { }).recovery).any fun r => decide ((v.recoveryOver s.time r = false))) = true)) = true) ∧
    (∃ (p : Nat) (n : Nat) (s : State), p < 1024 ∧ n < 8 ∧
      ((s.port? p).any fun v => decide (((tget v.pause n { }).until_ = none) ∧ ((tget v.pause n { }).recovery = none) ∧ ((tget v.pause n { }).xoff = false))) = true) :=
  ⟨⟨8, 2, pz { until_ := some 500, since := 2 } 1 1, by decide +kernel⟩,
   ⟨8, 2, pz { until_ := some 400000000000, since := 2 } 2 300000000, by decide +kernel⟩,
   ⟨8, 2, pz { recovery := some 3 } 2 5000000000, by decide +kernel⟩,
   ⟨8, 2, pz { xoff := true, xoffSent := some 0 } 2 1000000000, by decide +kernel⟩,
   ⟨8, 2, pz { until_ := some 500, since := 2 } 1, by decide +kernel⟩,
   ⟨8, 7, p8u, by decide +kernel⟩,
   ⟨8, 2, pz { recovery := some 3 } 2, by decide +kernel⟩,
   ⟨8, 7, p8u, by decide +kernel⟩⟩

/-- Inputs that meet the hypotheses of each clause of Obligations.BringUpRowsComplete. -/
theorem witness_BringUpRowsComplete :
    (∃ (p : Nat) (s : State), p < 1024 ∧ (s.held dLinkFault p = false) ∧
      ((s.port? p).any fun v => decide ((v.state = LaneState.waitSignal))) = true) ∧
    (∃ (p : Nat) (s : State), p < 1024 ∧ ((s.port? p).any fun v => decide ((v.state = LaneState.negotiate))) = true) ∧
    (∃ (p : Nat) (s : State), p < 1024 ∧ ((s.port? p).any fun v => decide ((v.state = LaneState.train))) = true) ∧
    (∃ (p : Nat) (s : State) (skew : Nat), p < 1024 ∧ (s.heldDown p = false) ∧ (s.degradeHeld p = false) ∧
      ((s.port? p).any fun v => decide ((v.state = LaneState.align) ∧ (skew ≤ 64))) = true) ∧
    (∃ (p : Nat) (s : State) (skew : Nat), p < 1024 ∧ ((s.heldDown p = true ∨ s.degradeHeld p = true)) ∧
      ((s.port? p).any fun v => decide ((v.state = LaneState.align) ∧ (skew ≤ 64))) = true) ∧
    (∃ (p : Nat) (s : State) (skew : Nat), p < 1024 ∧
      ((s.port? p).any fun v => decide ((v.state = LaneState.align) ∧ (64 < skew))) = true) ∧
    (∃ (p : Nat) (s : State), p < 1024 ∧ ((s.port? p).any fun v => decide ((v.state = LaneState.align))) = true) ∧
    (∃ (p : Nat) (lane : Nat) (s : State), p < 1024 ∧ lane < 1024 ∧ (s.lanePort? lane = some p) ∧
      ((s.port? p).any fun v => decide ((v.state = LaneState.up))) = true) ∧
    (∃ (p : Nat) (s : State), p < 1024 ∧ ((s.port? p).any fun v => decide ((v.state = LaneState.disabled))) = true) :=
  ⟨⟨8, ps LaneState.waitSignal, by decide +kernel⟩,
   ⟨8, ps LaneState.negotiate, by decide +kernel⟩,
   ⟨8, ps LaneState.train, by decide +kernel⟩,
   ⟨8, ps LaneState.align, 8, by decide +kernel⟩,
   ⟨8, { ps LaneState.align with err := { failedClusters := List.map (fun n => (n, ())) (List.range 16) } }, 8,
     by decide +kernel⟩,
   ⟨8, ps LaneState.align, 70, by decide +kernel⟩,
   ⟨8, ps LaneState.align, by decide +kernel⟩,
   ⟨8, 8, ps LaneState.up, by decide +kernel⟩,
   ⟨8, ps LaneState.disabled, by decide +kernel⟩⟩

/-- Inputs that meet the hypotheses of each clause of Obligations.LaneEventsComplete. -/
theorem witness_LaneEventsComplete :
    (∃ (n : Nat) (s : State) (lk : Bool), n < 1024 ∧ (s.laneState n ≠ LaneState.disabled) ∧
      (s.laneState n ≠ LaneState.waitSignal) ∧
      (if s.laneState n = LaneState.up then (s.lane n).lock = true else lk = true ∧ s.held dLinkFault n = false)) ∧
    (∃ (n : Nat) (s : State) (lk : Bool), n < 1024 ∧
      ((s.laneState n = LaneState.disabled ∨ (s.laneState n = LaneState.waitSignal ∨ if s.laneState n = LaneState.up then (s.lane n).lock = false else lk = false ∨ s.held dLinkFault n = true)))) ∧
    (∃ (n : Nat) (s : State), n < 1024 ∧ ((s.lane n).chkPattern ≠ 0)) ∧
    (∃ (n : Nat), n < 1024) ∧
    (∃ (n : Nat) (s : State), n < 1024 ∧ (s.laneState n = LaneState.train)) ∧
    (∃ (n : Nat) (s : State), n < 1024 ∧ (s.laneState n ≠ LaneState.train)) :=
  ⟨⟨8, ps LaneState.train, true, by decide +kernel⟩,
   ⟨1023, ps LaneState.train, true, by decide +kernel⟩,
   ⟨8, (ps LaneState.up).setLane 8 { signal := true, lock := true, chkPattern := 2 }, by decide +kernel⟩,
   ⟨1023, by decide +kernel⟩,
   ⟨8, ps LaneState.train, by decide +kernel⟩,
   ⟨1023, ps LaneState.train, by decide +kernel⟩⟩

end Reception

namespace TimeAndTally

def tm (f : Time → Time) : State := { ready with time := f { ready.time with ns := 5000000, beat := 5 } }
def m32 (n : Int) : Nat := (n % 2^32).toNat
def pf : State := { p8u with tally := { p8u.tally with perf := [(5, { event := 3, count := { val := 9, sticky := true } }), (6, { event := 4, count := { val := 10 } })] }}
def tl (f : Tally → Tally) : State := { p8u with tally := f p8u.tally }
def pd : Period := { first := 0, last := 1023, gen := 0, recv := [(8, (1, 64, 0, 0))] }
def bk : Tab Bank := [(0, { prev := [{ key := { ingress := 8, egress := 9, cls := 0, disp := .forwarded, reason := 0, copy := 0 }, packets := 1, bytes := 64 }] })]

/-- Inputs that meet the hypotheses of each clause of Obligations.TimeCommandsComplete. -/
theorem witness_TimeCommandsComplete :
    (∃ (c : Cmd) (s : State), (s.takes 0x0701 c = true)) ∧
    (∃ (c : Cmd) (s : State), (s.takes 0x0702 c = true) ∧ (10 ≤ fld (wd c.words 1) 0 14) ∧
      (fld (wd c.words 1) 0 14 ≤ 10000) ∧ (1000000000 % fld (wd c.words 1) 0 14 = 0) ∧ (s.time.source ≠ 2) ∧
      (fld (wd c.words 1) 0 14 = s.time.beats.toNat) ∧ (s.time.pendingB = none)) ∧
    (∃ (c : Cmd) (s : State), (s.takes 0x0702 c = true) ∧ (10 ≤ fld (wd c.words 1) 0 14) ∧
      (fld (wd c.words 1) 0 14 ≤ 10000) ∧ (1000000000 % fld (wd c.words 1) 0 14 = 0) ∧ (s.time.source ≠ 2) ∧
      (fld (wd c.words 1) 0 14 ≠ s.time.beats.toNat) ∧ (s.bellBusy c = false)) ∧
    (∃ (c : Cmd) (s : State), (s.takes 0x0703 c = true) ∧ (fld (wd c.words 1) 0 3 < 5) ∧
      ((bit (wd c.words 1) 3 = true → fld (wd c.words 1) 0 3 = 1)) ∧ (fld (wd c.words 1) 6 2 ≠ 3) ∧
      ((fld (wd c.words 1) 6 2 = 2 → fld (wd c.words 1) 0 3 = 2)) ∧ (1 ≤ fld (wd c.words 1) 8 8) ∧
      (fld (wd c.words 1) 8 8 ≤ 250) ∧ (1 ≤ fld (wd c.words 2) 0 16) ∧ (1 ≤ fld (wd c.words 2) 16 8) ∧
      (1 ≤ fld (wd c.words 2) 24 8) ∧ (1000 ≤ fld (wd c.words 3) 0 30) ∧ (fld (wd c.words 3) 0 30 ≤ 1000000000)) ∧
    (∃ (c : Cmd) (s : State), (s.takes 0x0705 c = true) ∧
      ((BitVec.toNat (wd c.words 1) + fld (wd c.words 2) 0 16 * 2 ^ 32) * 1000000000 < 2 ^ 63) ∧ (s.time.source = 1)) ∧
    (∃ (c : Cmd) (s : State), (s.takes 0x0704 c = true) ∧ ((s.time.source = 0 ∨ s.time.source = 3)) ∧
      (fld (wd c.words 1) 0 2 = 0) ∧ (0 ≤ s.time.total + adjustValue c) ∧ (s.time.total + adjustValue c < timeMax)) ∧
    (∃ (c : Cmd) (s : State), (s.takes 0x0704 c = true) ∧ ((s.time.source = 0 ∨ s.time.source = 3)) ∧
      (fld (wd c.words 1) 0 2 = 3) ∧ (↑(wd64 c.words 2) * nsUnit + ↑(fld (wd c.words 4) 0 16) * 2 ^ 32 < timeMax)) ∧
    (∃ (c : Cmd) (s : State), (s.takes 0x0704 c = true) ∧ ((s.time.source = 0 ∨ s.time.source = 3)) ∧
      (fld (wd c.words 1) 0 2 = 1) ∧ ((adjustValue c).natAbs ≤ 1000000000 * 2 ^ 48)) ∧
    (∃ (c : Cmd) (s : State), (s.takes 0x0704 c = true) ∧ ((s.time.source = 0 ∨ s.time.source = 3)) ∧
      (fld (wd c.words 1) 0 2 = 2) ∧ (wd c.words 3 = 0) ∧ (fld (wd c.words 4) 0 16 = 0) ∧
      ((signed 32 (BitVec.toNat (wd c.words 2))).natAbs ≤ 128000000)) :=
  ⟨⟨pk 0x0701 [0], tm (fun t => { t with state := TimeState.locked, source := 1 }), by decide +kernel⟩,
   ⟨pk 0x0702 [0, 1000], tm id, by decide +kernel⟩,
   ⟨pk 0x0702 [0, 500], tm id, by decide +kernel⟩,
   ⟨pk 0x0703 [0, 1 + 8 + 16 + 32 + 64 + 256 * 50, 50 + 65536 * 10 + 2 ^ 24 * 30, 5000, 7 + 65536 * 3], tm id,
     by decide +kernel⟩,
   ⟨pk 0x0705 [0, 77, 0], tm (fun t => { t with source := 1 }), by decide +kernel⟩,
   ⟨pk 0x0704 [0, 0, 1000, 0, 0], tm id, by decide +kernel⟩,
   ⟨pk 0x0704 [0, 3, 777777777, 3, 9], tm id, by decide +kernel⟩,
   ⟨pk 0x0704 [0, 1, 100, 0, 0], tm id, by decide +kernel⟩,
   ⟨pk 0x0704 [0, 2, 128000000, 0, 0], tm id, by decide +kernel⟩⟩

/-- Inputs that meet the hypotheses of each clause of Obligations.TimeEventsComplete. -/
theorem witness_TimeEventsComplete :
    (∃ (s : State) (captured : Nat), (s.pwr.ready = true) ∧ (s.time.source = 1) ∧ (s.time.ppsLabel = none) ∧
      (s.time.ppsLast = none) ∧ (s.time.ppsLocked = true) ∧
      (((captured : Int) - ((captured + 4000000000) / 8000000000 * 8000000000 : Nat)).natAbs > 8000000)) ∧
    (∃ (s : State) (captured : Nat), (s.pwr.ready = true) ∧ (s.time.source = 1) ∧ (s.time.ppsLabel = none) ∧
      (s.time.ppsLast = none) ∧
      ((s.time.ppsLocked = false ∨ ((captured : Int) - ((captured + 4000000000) / 8000000000 * 8000000000 : Nat)).natAbs ≤ 8000000))) ∧
    (∃ (s : State), ((s.pwr.ready = false ∨ s.time.source ≠ 1))) ∧
    (∃ (s : State), (s.pwr.ready = true) ∧ (s.time.source = 1) ∧ (s.time.refEn = true) ∧
      (s.time.state ≠ TimeState.holdover)) ∧
    (∃ (s : State), (s.pwr.ready = true) ∧ (s.time.source = 1) ∧ (s.time.state = TimeState.holdover)) ∧
    (∃ (s : State), (s.pwr.ready = true) ∧ (s.time.source = 4) ∧
      ((s.time.state = TimeState.unset ∨ s.time.state = TimeState.freerun))) ∧
    (∃ (s : State), (s.time.source ≠ 0) ∧ ((s.time.state = TimeState.acquiring ∨ s.time.state = TimeState.locked)) ∧
      (s.time.measured + s.time.srcTimeout.toNat * 100000000 ≤ s.time.runNs)) ∧
    (∃ (s : State),
      ((s.time.source = 0 ∨ ((s.time.state ≠ TimeState.acquiring ∧ s.time.state ≠ TimeState.locked) ∨ s.time.runNs < s.time.measured + s.time.srcTimeout.toNat * 100000000)))) ∧
    (∃ (s : State), (s.timeRuns = true) ∧ (s.time.rateDue = false)) ∧
    (∃ (s : State), (s.timeRuns = false)) ∧
    (∃ (s : State) (b : BitVec 14), (s.timeRuns = true) ∧ (s.time.rateDue = true) ∧ (s.time.pendingB = some (b, none))) ∧
    (∃ (s : State), ((s.timeRuns = false ∨ s.time.rateDue = false))) :=
  ⟨⟨tm (fun t => { t with source := 1, ppsLocked := true }), 40000000, by decide +kernel⟩,
   ⟨tm (fun t => { t with state := TimeState.locked, source := 1, refEn := true }), 40000000, by decide +kernel⟩,
   ⟨p8, by decide +kernel⟩,
   ⟨tm (fun t => { t with state := TimeState.locked, source := 1, refEn := true }), by decide +kernel⟩,
   ⟨tm (fun t => { t with state := TimeState.holdover, source := 1, refEn := true }), by decide +kernel⟩,
   ⟨tm (fun t => { t with state := TimeState.unset, source := 4 }), by decide +kernel⟩,
   ⟨tm (fun t => { t with ns := 5000000000, state := TimeState.locked, source := 1 }), by decide +kernel⟩,
   ⟨p8, by decide +kernel⟩,
   ⟨p8, by decide +kernel⟩,
   ⟨State.reset, by decide +kernel⟩,
   ⟨tm (fun t => { t with ns := 1999500000, beat := 1999, pendingB := some (500, none) }), 500, by decide +kernel⟩,
   ⟨p8, by decide +kernel⟩⟩

/-- Inputs that meet the hypotheses of each clause of Obligations.TelemetryCommandsComplete. -/
theorem witness_TelemetryCommandsComplete :
    (∃ (c : Cmd) (s : State), (s.takes 0x0801 c = true) ∧ (7 ≤ fld (wd c.words 1) 0 5) ∧ (fld (wd c.words 1) 0 5 ≤ 20) ∧
      (4 ≤ fld (wd c.words 1) 6 5) ∧ (fld (wd c.words 1) 6 5 ≤ 16) ∧ (fld (wd c.words 1) 12 8 ≤ 20)) ∧
    (∃ (c : Cmd) (s : State), (s.takes 0x0802 c = true) ∧ (fld (wd c.words 0) 0 3 < 6) ∧ (ringAligned c.words = true) ∧
      (fnEnabled (fld (wd c.words 1) 1 4) = true) ∧
      ((bit (wd c.words 1) 0 = true → (16 ≤ fld (wd c.words 1) 5 5 ∧ fld (wd c.words 1) 5 5 ≤ 30)))) ∧
    (∃ (c : Cmd) (s : State), (s.takes 0x0804 c = true) ∧ ((perfOf (List.drop 1 c.words)).legal = true)) ∧
    (∃ (c : Cmd) (s : State), (s.takes 0x0806 c = true) ∧ (1 ≤ fld (wd c.words 1) 0 16) ∧
      (s.port? (portOf c)).isSome = true) ∧
    (∃ (c : Cmd) (s : State), (s.takes 0x0808 c = true) ∧ (wd c.words 2 ≠ 0) ∧ (s.port? (portOf c)).isSome = true) ∧
    (∃ (c : Cmd) (s : State), (s.takes 0x0809 c = true) ∧ (64 ≤ fld (wd c.words 2) 0 14)) ∧
    (∃ (c : Cmd) (s : State), (s.takes 0x0803 c = true) ∧
      ((s.port? (portOf c)).any fun v => decide ((v.cumFrozen = false))) = true) ∧
    (∃ (c : Cmd) (s : State), (s.takes 0x0805 c = true) ∧ (2 ≤ s.cmdPriv c) ∧ (1 ≤ fld (wd c.words 0) 9 9) ∧
      (fld (wd c.words 0) 9 9 ≤ 256) ∧ (fld (wd c.words 0) 0 9 + fld (wd c.words 0) 9 9 ≤ 512) ∧
      ((∀ i, i < fld (wd c.words 0) 9 9 → (tget s.tally.perf (fld (wd c.words 0) 0 9 + i) { }).count.frozen = false))) ∧
    (∃ (c : Cmd) (s : State), (s.takes 0x0807 c = true) ∧ (s.port? (portOf c)).isSome = true) :=
  ⟨⟨pk 0x0801 [0, 9 + 64 * 5 + 32 + 4096 * 3], ready, by decide +kernel⟩,
   ⟨pk 0x0802 [2, 1 + 32 * 20, 4096, 0, 8192, 0], ready, by decide +kernel⟩,
   ⟨pk 0x0804 [5, 1 + 1024 + 983040, 1048575, 65535, 0, 0], ready, by decide +kernel⟩,
   ⟨pk 0x0806 [8, 100 + 65536], p8u, by decide +kernel⟩,
   ⟨pk 0x0808 [8, 5 + 2 ^ 24, 9], p8u, by decide +kernel⟩,
   ⟨pk 0x0809 [3, 8 + 2048 + 16384 + 32768, 64], ready, by decide +kernel⟩,
   ⟨pk 0x0803 [8], p8u, by decide +kernel⟩,
   ⟨pk 0x0805 [5 + 512 * 1], pf, by decide +kernel⟩,
   ⟨pk 0x0807 [8], p8u, by decide +kernel⟩⟩

/-- Inputs that meet the hypotheses of each clause of Obligations.TelemetryRowsComplete. -/
theorem witness_TelemetryRowsComplete :
    (∃ (s : State), ((s.tally.prev).any fun p => decide ((p.closed = false))) = true) ∧
    (∃ (s : State), ((s.tally.prev).any fun p => decide ((p.closed = true))) = true) ∧
    (∃ (s : State),
      ((s.tally.prev).any fun p => decide ((p.closed = true) ∧ (p.checked = false) ∧ (match p.recv with | [e] => decide (((if e.fst / 512 = 0 then p.westAbsent else p.eastAbsent) = false) ∧ (s.port? e.fst).isSome = true) | _ => false) = true)) = true) ∧
    (∃ (s : State), (s.tally.prev = none)) ∧
    (∃ (stream : Nat) (s : State), stream < 6 ∧ (s.cif.pcieUp = true) ∧
      (match popUnit stream s.tally.units with | some (u, rest) => decide (True) | _ => false) = true) ∧
    (∃ (stream : Nat) (s : State), stream < 6 ∧ (s.cif.pcieUp = false) ∧
      (match popUnit stream s.tally.units with | some (u, rest) => decide (True) | _ => false) = true) ∧
    (∃ (stream : Nat) (s : State), stream < 6 ∧ (popUnit stream s.tally.units = none)) :=
  ⟨⟨tl (fun t => { t with banks := bk, prev := some pd }), by decide +kernel⟩,
   ⟨tl (fun t => { t with banks := bk, prev := some { pd with closed := true } }), by decide +kernel⟩,
   ⟨tl (fun t => { t with banks := bk, prev := some { pd with closed := true } }), by decide +kernel⟩,
   ⟨p8u, by decide +kernel⟩,
   ⟨2,
     tl (fun t => { t with rings := [(2, { en := true, sizeLog2 := 16 }), (3, { en := true, sizeLog2 := 16 }), (4, { en := true, sizeLog2 := 16, producer := 65536 })], units := [{ stream := 2, source := 0, seq := 0, words := List.replicate 16 7 }, { stream := 3, source := 0, seq := 0, words := List.replicate 16 7 }, { stream := 4, source := 0, seq := 0, words := List.replicate 16 7 }] }),
     by decide +kernel⟩,
   ⟨2,
     { tl (fun t => { t with rings := [(2, { en := true, sizeLog2 := 16 }), (3, { en := true, sizeLog2 := 16 })], units := [{ stream := 2, source := 0, seq := 0, words := List.replicate 16 7 }, { stream := 3, source := 0, seq := 0, words := List.replicate 16 7 }] }) with cif := { p8u.cif with pcieUp := false } },
     by decide +kernel⟩,
   ⟨5, p8u, by decide +kernel⟩⟩

end TimeAndTally

namespace ErrorRows

def er (f : Errors → Errors) : State := { p8u with err := f p8u.err }
def errs : State := er fun e => { e with dets := [(0, { corrected := 3 })], log := [{ seq := 0, det := 1, inst := 2, uncorr := true, injected := false, address := 5, action := 1, discarded := 0, beat := 4, gen := 0, ns := 0 }] }
def inj (d i m : Nat) : Injection := { det := d, inst := i, mode := m, count := 3, period := 5, address := 0, duration := 0, pattern := 1, check := 0, due := false, aim := d }
def kk : Pkt := { id := 7, ingress := some 8, len := 200, egress := some 8, qidx := 2, data := List.replicate 196 3 }
def gq : State := { p8u.setQueue 130 { glacier := [{ kk with block := some (0, 3)}, { kk with id := 9, block := some (0, 4)}], spilling := true } with arrivals := [{ kk with ingress := some 600 }, kk], parseQ := [{ kk with id := 21 }] }
def pv (v : Port) : State := withPort { ready with aon := { ready.aon with stage := 8 } } 8 v
def fl : Flight := { cmd := { pk 0x0103 [] with src := .mgmt }, priv := 3, phase := .running }

/-- Inputs that meet the hypotheses of each clause of Obligations.ErrorCommandsAndInjectionComplete. -/
theorem witness_ErrorCommandsAndInjectionComplete :
    (∃ (c : Cmd) (s : State), (s.takes 0x0901 c = true) ∧ (detCount (fld (wd c.words 0) 0 8) ≠ 0) ∧
      ((fld (wd c.words 0) 8 20 < detCount (fld (wd c.words 0) 0 8) ∨ fld (wd c.words 0) 8 20 = 1048575))) ∧
    (∃ (c : Cmd) (s : State), (s.takes 0x0903 c = true) ∧ (detCount (fld (wd c.words 0) 0 8) ≠ 0) ∧
      ((fld (wd c.words 0) 8 20 < detCount (fld (wd c.words 0) 0 8) ∨ fld (wd c.words 0) 8 20 = 1048575)) ∧
      (if fld (wd c.words 0) 0 8 = 6 ∨ fld (wd c.words 0) 0 8 = 7 then fld (wd c.words 1) 1 4 ≠ 0 else fld (wd c.words 1) 1 4 = 3) ∧
      (if fld (wd c.words 0) 0 8 = 16 then fld (wd c.words 2) 0 2 ≠ 3 ∧ 10 ≤ fld (wd c.words 2) 2 5 ∧ fld (wd c.words 2) 2 5 ≤ 24 ∧ fld (wd c.words 2) 7 8 ≠ 0 ∧ fld (wd c.words 2) 15 8 ≠ 0 ∧ fld (wd c.words 3) 0 8 ≠ 0 ∧ fld (wd c.words 3) 8 24 ≠ 0 else fld (wd c.words 2) 0 2 = 0 ∧ fld (wd c.words 2) 2 5 = 16 ∧ fld (wd c.words 2) 7 8 = 4 ∧ fld (wd c.words 2) 15 8 = 16 ∧ fld (wd c.words 3) 0 8 = 1 ∧ fld (wd c.words 3) 8 24 = 1048576)) ∧
    (∃ (c : Cmd) (s : State), (s.takes 0x0904 c = true) ∧ (1 ≤ fld (wd c.words 0) 10 11) ∧ (fld (wd c.words 0) 10 11 ≤ 64) ∧
      (fld (wd c.words 0) 0 10 + fld (wd c.words 0) 10 11 ≤ 1024)) ∧
    (∃ (c : Cmd) (s : State), (s.takes 0x0902 c = true) ∧ (fld (wd c.words 1) 0 2 = 0) ∧
      (fld (wd c.words 0) 8 20 < detCount (fld (wd c.words 0) 0 8))) ∧
    (∃ (c : Cmd) (s : State), (s.takes 0x0902 c = true) ∧ (fld (wd c.words 1) 0 2 = 1) ∧
      ((fld (wd c.words 0) 8 20 < detCount (fld (wd c.words 0) 0 8) ∧ (patternOk (fld (wd c.words 0) 0 8) (BitVec.toNat (wd c.words 3)) (wd64 c.words 5) (fld (wd c.words 7) 0 16) = true ∧ (durationOk (fld (wd c.words 0) 0 8) (BitVec.toNat (wd c.words 4)) = true ∧ ((resets (fld (wd c.words 0) 0 8) (fld (wd c.words 0) 8 20) = true → bit (wd c.words 1) 2 = true) ∧ ((fld (wd c.words 0) 0 8 = dDoubleFree → (BitVec.toNat (wd c.words 3) < poolBlocks (fld (wd c.words 0) 8 20 % 4) ∧ s.blockWrong (fld (wd c.words 0) 8 20) (BitVec.toNat (wd c.words 3)) (wd64 c.words 5) = false)) ∧ (s.err.injections.length < 64 ∧ (∀ j ∈ s.err.injections, (j.aim = fld (wd c.words 0) 0 8 → j.inst ≠ fld (wd c.words 0) 8 20))))))))) ∧
      (BitVec.toNat (wd c.words 2) = 0)) ∧
    (∃ (c : Cmd) (s : State), (s.takes 0x0902 c = true) ∧ (fld (wd c.words 1) 0 2 = 2) ∧
      ((fld (wd c.words 0) 8 20 < detCount (fld (wd c.words 0) 0 8) ∧ (patternOk (fld (wd c.words 0) 0 8) (BitVec.toNat (wd c.words 3)) (wd64 c.words 5) (fld (wd c.words 7) 0 16) = true ∧ (durationOk (fld (wd c.words 0) 0 8) (BitVec.toNat (wd c.words 4)) = true ∧ ((resets (fld (wd c.words 0) 0 8) (fld (wd c.words 0) 8 20) = true → bit (wd c.words 1) 2 = true) ∧ ((fld (wd c.words 0) 0 8 = dDoubleFree → (BitVec.toNat (wd c.words 3) < poolBlocks (fld (wd c.words 0) 8 20 % 4) ∧ s.blockWrong (fld (wd c.words 0) 8 20) (BitVec.toNat (wd c.words 3)) (wd64 c.words 5) = false)) ∧ (s.err.injections.length < 64 ∧ (∀ j ∈ s.err.injections, (j.aim = fld (wd c.words 0) 0 8 → j.inst ≠ fld (wd c.words 0) 8 20))))))))) ∧
      (1 ≤ BitVec.toNat (wd c.words 2)) ∧ (BitVec.toNat (wd c.words 2) ≤ 1000000)) ∧
    (∃ (c : Cmd) (s : State), (s.takes 0x0902 c = true) ∧ (fld (wd c.words 1) 0 2 = 3) ∧
      ((fld (wd c.words 0) 8 20 < detCount (fld (wd c.words 0) 0 8) ∧ (patternOk (fld (wd c.words 0) 0 8) (BitVec.toNat (wd c.words 3)) (wd64 c.words 5) (fld (wd c.words 7) 0 16) = true ∧ (durationOk (fld (wd c.words 0) 0 8) (BitVec.toNat (wd c.words 4)) = true ∧ ((resets (fld (wd c.words 0) 0 8) (fld (wd c.words 0) 8 20) = true → bit (wd c.words 1) 2 = true) ∧ ((fld (wd c.words 0) 0 8 = dDoubleFree → (BitVec.toNat (wd c.words 3) < poolBlocks (fld (wd c.words 0) 8 20 % 4) ∧ s.blockWrong (fld (wd c.words 0) 8 20) (BitVec.toNat (wd c.words 3)) (wd64 c.words 5) = false)) ∧ (s.err.injections.length < 64 ∧ (∀ j ∈ s.err.injections, (j.aim = fld (wd c.words 0) 0 8 → j.inst ≠ fld (wd c.words 0) 8 20))))))))) ∧
      (BitVec.toNat (wd c.words 2) = 0)) ∧
    (∃ (c : Cmd) (s : State) (d : Nat) (i : Nat), i < detCount d ∧
      ((∀ j ∈ s.err.injections, (j.aim = d → (j.inst = i → j.mode ≠ 2))))) ∧
    (∃ (c : Cmd) (s : State) (d : Nat) (i : Nat), i < detCount d ∧
      ((List.find? (fun j => decide (j.aim = d) && decide (j.inst = i) && decide (j.mode = 2)) s.err.injections).any fun j => decide ((s.time.runPs < j.since + j.period * 1000000))) = true) ∧
    (∃ (c : Cmd) (s : State) (d : Nat) (i : Nat), i < detCount d ∧
      ((List.find? (fun j => decide (j.aim = d) && decide (j.inst = i) && decide (j.mode = 2)) s.err.injections).any fun j => decide ((j.since + j.period * 1000000 ≤ s.time.runPs))) = true) :=
  ⟨⟨pk 0x0901 [2 + 256 * 3], p8, by decide +kernel⟩,
   ⟨pk 0x0903 [6 + 256 * 3, 1 + 2 * 7, 16 * 4 + 4 * 128 + 16 * 32768, 1 + 1048576 * 256], p8, by decide +kernel⟩,
   ⟨pk 0x0904 [0 + 1024 * 3], errs, by decide +kernel⟩,
   ⟨pk 0x0902 [1 + 256 * 3, 0, 0, 0, 0, 0, 0, 0], er (fun e => { e with injections := [inj 1 3 2, inj 1 4 2] }),
     by decide +kernel⟩,
   ⟨pk 0x0902 [1 + 256 * 3, 1, 0, 0, 0, 1, 0, 0], p8, by decide +kernel⟩,
   ⟨pk 0x0902 [1 + 256 * 3, 2 + 5 * 65536, 100, 0, 0, 1, 0, 0], p8, by decide +kernel⟩,
   ⟨pk 0x0902 [1 + 256 * 3, 3, 0, 0, 0, 1, 0, 0], p8, by decide +kernel⟩,
   ⟨pk 0x0902 [1 + 256 * 3, 0, 0, 0, 0, 0, 0, 0], er (fun e => { e with injections := [inj 1 3 2, inj 1 4 2] }), 1, 255,
     by decide +kernel⟩,
   ⟨pk 0x0902 [1 + 256 * 3, 0, 0, 0, 0, 0, 0, 0], er (fun e => { e with injections := [inj 1 3 2, inj 1 4 2] }), 1, 3,
     by decide +kernel⟩,
   ⟨pk 0x0103 [], { er (fun e => { e with injections := [inj 1 2 2] }) with time := { p8u.time with ns := 1000000 } }, 1, 2,
     by decide +kernel⟩⟩

/-- Inputs that meet the hypotheses of each clause of Obligations.StoredDataErrorsComplete. -/
theorem witness_StoredDataErrorsComplete :
    (∃ (r : Nat) (b : Nat) (w : Nat) (n : Nat), r < 4 ∧ b < 64 ∧ w < 4 ∧ n < 1280) ∧
    (∃ (r : Nat) (s : State) (corrected : List Nat), r < 4 ∧
      ((∀ b, b < 64 → ((∀ j ∈ s.err.injections, (j.det = 1 → (j.inst = r * 64 + b → j.due = false))) ∧ (∀ j ∈ s.err.injections, (j.det = 2 → (j.inst = r * 64 + b → j.due = false)))))) ∧
      ((∀ n ∈ corrected, n < 327680))) ∧
    (∃ (r : Nat) (n : Nat) (s : State), r < 4 ∧ n < 327680 ∧
      ((∀ b, b < 64 → ((∀ j ∈ s.err.injections, (j.det = 1 → (j.inst = r * 64 + b → j.due = false))) ∧ (∀ j ∈ s.err.injections, (j.det = 2 → (j.inst = r * 64 + b → j.due = false))))))) ∧
    (∃ (r : Nat) (s : State), r < 4 ∧ ((∀ j ∈ s.err.injections, (j.det = 4 → (j.inst = r → j.due = false)))) ∧
      ((∀ j ∈ s.err.injections, (j.det = 5 → (j.inst = r → j.due = false))))) ∧
    (∃ (r : Nat), r < 4) ∧
    (∃ (r : Nat) (i : Nat), r < 4 ∧ i < 65536) ∧
    (∃ (r : Nat) (q : Nat), r < 4 ∧ (queueRegion q = r)) ∧
    (∃ (r : Nat) (s : State) (p : Nat), r < 4 ∧ (laneRegion p = r) ∧ (s.hasPort p = true)) ∧
    (∃ (r : Nat) (s : State) (q : Nat), r < 4 ∧ (queueRegion q = r) ∧ ((s.queue q).headF).isSome = true) ∧
    (∃ (r : Nat) (w : RegionWord), r < 4 ∧ ((w = RegionWord.allocatorCount ∨ w = RegionWord.counterCopy))) ∧
    (∃ (r : Nat) (s : State), r < 4 ∧ ((s.region r).badLinks = []) ∧
      ((∀ j ∈ s.err.injections, (j.det = 3 → (j.inst = r → j.due = false))))) :=
  ⟨⟨3, 63, 3, 1279, by decide +kernel⟩,
   ⟨3, p8u, [], by decide +kernel⟩,
   ⟨3, 327679, p8u, by decide +kernel⟩,
   ⟨3, p8u, by decide +kernel⟩,
   ⟨3, by decide +kernel⟩,
   ⟨3, 65535, by decide +kernel⟩,
   ⟨0, 0, by decide +kernel⟩,
   ⟨0, p8u, 8, by decide +kernel⟩,
   ⟨0,
     { (p8u.setQueue 130 { shaper := { en := true, credit := 5 }, granary := [kk], headF := some 4 }).setMeter 0 0 { mode := 1, cbs := 8 } with arrivals := [{ kk with id := 5 }] },
     130, by decide +kernel⟩,
   ⟨3, RegionWord.allocatorCount, by decide +kernel⟩,
   ⟨3, p8u, by decide +kernel⟩⟩

/-- Inputs that meet the hypotheses of each clause of Obligations.ClusterGlacierLinkErrorsComplete. -/
theorem witness_ClusterGlacierLinkErrorsComplete :
    (∃ (k : Nat) (s : State), k < 16 ∧ (thas s.err.failedClusters k = false)) ∧
    (∃ (k : Nat) (s : State), k < 16 ∧ (thas s.err.failedClusters k = true)) ∧
    (∃ (k : Nat), k < 16) ∧
    (∃ (q : Nat) (s : State) (keep : Nat), q < 16384 ∧ ((s.queue q).glacier[keep]?).isSome = true) ∧
    (∃ (q : Nat) (s : State) (keep : Nat), q < 16384 ∧ ((s.queue q).glacier[keep]? = none)) ∧
    (∃ (d : Nat), d < 2) ∧
    (∃ (n : Nat), n < 4) ∧
    (∃ (f : BadFlit), (f.channel < 64)) ∧
    (∃ (n : Nat) (w : Nat) (s : State), n < 64 ∧ w < 132 ∧ ((tget s.err.channels n { }).failed < 16)) ∧
    (∃ (n : Nat) (w : Nat) (s : State), n < 64 ∧ w < 132 ∧ (16 ≤ (tget s.err.channels n { }).failed) ∧
      (tget s.err.spares n 0 + 1 < 5)) ∧
    (∃ (n : Nat) (w : Nat) (s : State), n < 64 ∧ w < 132 ∧ (16 ≤ (tget s.err.channels n { }).failed) ∧
      (5 ≤ tget s.err.spares n 0 + 1)) ∧
    (∃ (d : Nat) (s : State), d < 2 ∧ (s.healthyChannels d < 26) ∧ ((s.det 15 d).failed = false)) ∧
    (∃ (d : Nat) (s : State), d < 2 ∧ ((26 ≤ s.healthyChannels d ∨ (s.det 15 d).failed = true))) ∧
    (∃ (l : List Nat), ((∀ n ∈ l, n < 64))) :=
  ⟨⟨15, p8u, by decide +kernel⟩,
   ⟨15,
     er (fun e => { e with fences := [(3, { mark := { det := 6, inst := 3, startNs := 0, beat := 0, gen := 0, ns := 0 } })], failedClusters := List.map (fun n => (n, ())) (List.range 16), spares := [(1, 4)], retired := [(5, ())] }),
     by decide +kernel⟩,
   ⟨15, by decide +kernel⟩,
   ⟨130, gq, 0, by decide +kernel⟩,
   ⟨16383, p8u, 0, by decide +kernel⟩,
   ⟨1, by decide +kernel⟩,
   ⟨3, by decide +kernel⟩,
   ⟨{ channel := 0 }, by decide +kernel⟩,
   ⟨63, 131, p8u, by decide +kernel⟩,
   ⟨0, 131,
     er (fun e => { e with spares := [(1, 4)], channels := [(0, { failed := 16 }), (1, { failed := 17 }), (8, { failed := 16 })] }),
     by decide +kernel⟩,
   ⟨1, 131,
     er (fun e => { e with spares := [(1, 4)], channels := [(0, { failed := 16 }), (1, { failed := 17 }), (8, { failed := 16 })] }),
     by decide +kernel⟩,
   ⟨0,
     { er (fun e => { e with retired := List.map (fun n => (n, ())) (List.range 7) }) with arrivals := [{ kk with ingress := some 600 }, kk] },
     by decide +kernel⟩,
   ⟨1, p8u, by decide +kernel⟩,
   ⟨[], by decide +kernel⟩⟩

/-- Inputs that meet the hypotheses of each clause of Obligations.LinkAndSurroundingErrorsComplete. -/
theorem witness_LinkAndSurroundingErrorsComplete :
    (∃ (p : Nat) (s : State), p < 1024 ∧ ((∀ j ∈ s.err.injections, j.det ≠ 16)) ∧
      ((s.port? p).any fun v => decide (((v.state = LaneState.up ∨ (v.state = LaneState.align ∧ s.degradeHeld p = true))) ∧ (v.hasFec = true))) = true) ∧
    (∃ (p : Nat) (s : State), p < 1024 ∧
      ((((s.port? p).all fun v => decide (((v.state ≠ LaneState.up ∧ (¬ (v.state = LaneState.align ∧ s.degradeHeld p = true))) ∨ v.hasFec = false))) = true))) ∧
    (∃ (p : Nat) (s : State), p < 1024 ∧ (s.port? p).isSome = true) ∧
    (∃ (e : Nat) (s : State), e < 5 ∧ (((s.engine e).state = StewState.reset ∨ (s.engine e).state = StewState.loading))) ∧
    (∃ (e : Nat) (s : State), e < 5 ∧ ((s.engine e).state = StewState.running) ∧ (s.stw.patch = none) ∧
      (s.cif.flights = [])) ∧
    (∃ (d : Nat) (s : State), d < 39 ∧ ((clockGroup d).any fun g => decide ((s.pwr.onStandby.getLsbD d = false))) = true) ∧
    (∃ (d : Nat) (s : State), d < 39 ∧ ((clockGroup d).any fun g => decide ((s.pwr.onStandby.getLsbD d = true))) = true) ∧
    (∃ (s : State), (s.aon.refPresent = false) ∧ (s.held 22 39 = false)) ∧
    (∃ (s : State), ((s.aon.refPresent = true ∨ s.held 22 39 = true))) ∧
    (∃ (s : State), (s.started = true) ∧ (s.aon.refPresent = false)) ∧
    (∃ (s : State), (s.aon.refPresent = true)) ∧
    (∃ (n : Nat), n < 29) ∧
    (∃ (n : Nat) (s : State) (x : Int), n < 29 ∧ (s.started = true) ∧ (1080 < s.heatWith 24 n x)) ∧
    (∃ (n : Nat) (s : State) (x : Int), n < 29 ∧ (s.heatWith 24 n x ≤ 1080)) ∧
    (∃ (n : Nat) (s : State) (mv : Nat), n < 8 ∧ (s.started = true) ∧ (railOut n (↑mv + s.offset 25 n).toNat = true)) ∧
    (∃ (n : Nat) (s : State) (mv : Nat), n < 8 ∧ (railOut n (↑mv + s.offset 25 n).toNat = false)) ∧
    (∃ (s : State) (src : Sender) (q : Nat) (tag : BitVec 12),
      ((List.find? (fun f => isTag src q tag f && !f.rejected) s.cif.flights).any fun f => decide ((f.phase = Phase.running) ∧ (s.hasResult f.cmd = false) ∧ (s.inTask f.cmd = false))) = true) ∧
    (∃ (s : State) (src : Sender) (q : Nat) (tag : BitVec 12),
      ((∀ f ∈ s.cif.flights, (isTag src q tag f = true → f.rejected = true)))) :=
  ⟨⟨8, pv up1, by decide +kernel⟩,
   ⟨1023, pv up1, by decide +kernel⟩,
   ⟨8, pv up1, by decide +kernel⟩,
   ⟨4, { ready with stw := { engines := [(0, { state := StewState.loading })] } }, by decide +kernel⟩,
   ⟨4, pv up1, by decide +kernel⟩,
   ⟨38, pv up1, by decide +kernel⟩,
   ⟨38, { ready with pwr := { ready.pwr with onStandby := BitVec.allOnes 40 } }, by decide +kernel⟩,
   ⟨{ ready with aon := { ready.aon with warned := [(3, ())], refPresent := false } }, by decide +kernel⟩,
   ⟨pv up1, by decide +kernel⟩,
   ⟨{ ready with aon := { ready.aon with warned := [(3, ())], refPresent := false } }, by decide +kernel⟩,
   ⟨pv up1, by decide +kernel⟩,
   ⟨28, by decide +kernel⟩,
   ⟨28, pv up1, 1200, by decide +kernel⟩,
   ⟨28, pv up1, 0, by decide +kernel⟩,
   ⟨7, pv up1, 0, by decide +kernel⟩,
   ⟨0, pv up1, 0, by decide +kernel⟩,
   ⟨{ ready with cif := { ready.cif with flights := [fl] } }, Sender.mgmt, 0, 5, by decide +kernel⟩,
   ⟨pv up1, Sender.mgmt, 0, 5, by decide +kernel⟩⟩

end ErrorRows

namespace StewardRows

def img : Image := { kind := 1, version := 5, words := [1, 2] }
def sw (f : Stewards → Stewards) : State := { p8u with stw := f p8u.stw }
def le4 (n : Nat) : List Byte := (List.range 4).map fun i => BitVec.ofNat 8 (n / 2 ^ (8 * i))
def imgB (k ver : Nat) (l : Nat := 1) : List Byte := le4 0x43524C46 ++ [1, 0, BitVec.ofNat 8 k, 0] ++ le4 ver ++ [BitVec.ofNat 8 l, 0, 0, 0] ++ le4 1 ++ le4 (32 + 20 + 8192 + 48) ++ le4 0 ++ le4 0 ++ List.replicate (20 + 8192 + 48) 0
def slots (s : State) : State := { s with aon := { s.aon with slotA := ({ state := .complete, central := imgB 0 5, region := imgB 1 5 } : Slot).commit } }
def lev (c : Cmd) (l u : Nat) : Cmd := { c with level := BitVec.ofNat 3 l, unit := BitVec.ofNat 15 u }
def pat (n : Nat) : State := sw fun s => { s with patch := some { region := 1, startNs := 0, oldImage := {}, image := img, phase := n, cmd := pk 0x0A03 [0, 5] } }

/-- Inputs that meet the hypotheses of each clause of Obligations.StewardRowsComplete. -/
theorem witness_StewardRowsComplete :
    (∃ (c : Cmd) (s : State), (s.takes 0x0A01 c = true)) ∧
    (∃ (c : Cmd) (s : State), (s.takes 0x0A02 c = true) ∧ (fld (wd c.words 0) 0 2 = 0) ∧ (32 ≤ fld (wd c.words 1) 0 20) ∧
      (fld (wd c.words 1) 0 20 ≤ 336144) ∧ (s.stw.patch = none)) ∧
    (∃ (c : Cmd) (s : State), (s.takes 0x0A02 c = true) ∧ (fld (wd c.words 0) 0 2 = 1) ∧
      (s.stw.staging = StageState.filling) ∧ (fld (wd c.words 1) 0 20 = s.stw.bytes.length) ∧
      (s.stw.bytes.length + (dataBytes c (s.stw.length - s.stw.bytes.length)).length ≤ s.stw.length)) ∧
    (∃ (c : Cmd) (s : State), (s.takes 0x0A02 c = true) ∧ (fld (wd c.words 0) 0 2 = 2) ∧ (wd c.words 1 = 0) ∧
      (s.stw.staging ≠ StageState.valid)) ∧
    (∃ (c : Cmd) (s : State), (s.takes 0x0A02 c = true) ∧ (fld (wd c.words 0) 0 2 = 3) ∧ (wd c.words 1 = 0)) ∧
    (∃ (c : Cmd) (s : State), (s.takes 0x0A03 c = true) ∧ (c.unit.toNat ≠ 0) ∧ (s.stw.staging = StageState.valid) ∧
      (s.stw.patch = none) ∧
      ((s.stw.staged).any fun i => decide ((wd c.words 1 = i.version) ∧ (i.taskFmt = (s.engine c.unit.toNat).image.taskFmt))) = true) ∧
    (∃ (c : Cmd) (s : State), (s.takes 0x0A04 c = true) ∧ (1 ≤ fld (wd c.words 0) 10 9) ∧ (fld (wd c.words 0) 10 9 ≤ 256)) ∧
    (∃ (e : Nat) (s : State) (k : Nat), e < 5 ∧
      (((s.engine e).state = StewState.running ∨ (s.engine e).state = StewState.quiescing)) ∧ ((s.engine e).causes = []) ∧
      ((s.engine e).stalled = false) ∧ ((s.engine e).saved = none) ∧ (1 ≤ k) ∧ (k ≤ 4)) ∧
    (∃ (e : Nat) (s : State) (k : Nat), e < 5 ∧ ((s.engine e).causes = []) ∧
      (((s.engine e).state = StewState.patching ∨ ((s.engine e).state = StewState.running ∧ (s.engine e).stalled = true))) ∧
      (1 ≤ k) ∧ (k ≤ 4)) ∧
    (∃ (e : Nat) (s : State) (k : Nat), e < 5 ∧ ((s.engine e).state = StewState.reset) ∧ (1 ≤ k) ∧ (k ≤ 4)) ∧
    (∃ (r : Nat) (s : State), r < 4 ∧ (s.quiet (1 + r) = true) ∧
      ((s.stw.patch).any fun p => decide ((p.region = r) ∧ (p.phase = 0))) = true) ∧
    (∃ (r : Nat) (s : State), r < 4 ∧ (s.quiet (1 + r) = false)) ∧
    (∃ (r : Nat) (s : State), r < 4 ∧ ((s.stw.patch).any fun p => decide ((p.region = r) ∧ (p.phase = 1))) = true) ∧
    (∃ (r : Nat) (s : State), r < 4 ∧ ((s.stw.patch).any fun p => decide ((p.region = r) ∧ (p.phase = 2))) = true) ∧
    (∃ (r : Nat) (s : State), r < 4 ∧ ((s.stw.patch).any fun p => decide ((p.region = r) ∧ (p.phase = 3))) = true) ∧
    (∃ (r : Nat) (s : State), r < 4 ∧ (s.stw.patch = none)) :=
  ⟨⟨pk 0x0A01 [], sw id, by decide +kernel⟩,
   ⟨pk 0x0A02 [0, 100], sw id, by decide +kernel⟩,
   ⟨pk 0x0A02 [1, 0, 5, 6, 7], sw (fun s => { s with staging := StageState.filling, length := 100 }), by decide +kernel⟩,
   ⟨pk 0x0A02 [2, 0], sw (fun s => { s with staging := StageState.filled, length := 12, bytes := List.replicate 12 0 }),
     by decide +kernel⟩,
   ⟨pk 0x0A02 [3, 0], sw id, by decide +kernel⟩,
   ⟨pk 0x0A03 [0, 5], sw (fun s => { s with staging := StageState.valid, staged := some img }), by decide +kernel⟩,
   ⟨pk 0x0A04 [0 + 1024 * 5],
     sw (fun s => { s with engines := tins s.engines 1 { trace := [{ pc := 1, kind := 2, tag := 3, time := 4 }, { pc := 5, kind := 1, tag := 2, time := 4 }] } }),
     by decide +kernel⟩,
   ⟨4, p8u, 1, by decide +kernel⟩,
   ⟨1,
     sw (fun s => { s with engines := [(1, { state := StewState.patching }), (2, { state := StewState.running, stalled := true })] }),
     1, by decide +kernel⟩,
   ⟨4, sw (fun s => { s with engines := [] }), 1, by decide +kernel⟩,
   ⟨1, pat 0, by decide +kernel⟩,
   ⟨1,
     sw (fun s => { s with engines := [(1, { state := StewState.patching }), (2, { state := StewState.running, stalled := true })] }),
     by decide +kernel⟩,
   ⟨1, pat 1, by decide +kernel⟩,
   ⟨1, pat 2, by decide +kernel⟩,
   ⟨1, pat 3, by decide +kernel⟩,
   ⟨3, p8u, by decide +kernel⟩⟩

end StewardRows

namespace ParishRows

def par (f : Parish → Parish) : State := { p8u with parish := f p8u.parish, time := { p8u.time with source := 2 } }
def lev (c : Cmd) (l u : Nat) : Cmd := { c with level := BitVec.ofNat 3 l, unit := BitVec.ofNat 15 u }
def pr (f : Parish → Parish) (g : Port → Port) : State := withPort { (par fun p => f { p with role := 3, device := 9, parishId := 0x77 }) with riwenQ := [] } 8 (g { up1 with riwenEn := true })
def h0 : Riwen := { port := 8, version := 1, payloadLen := 0, lenOk := true, parishId := 0x77, srcDevice := 0, dstDevice := 9, all := false, managerGen := 0, bellGen := 0, depth := 0 }
def bp : BellPayload := { txNs := 5, txFrac := 0, beats := 1000, holdover := false, masterId := 77, actEpoch := 0, actPhase := 0, actBeat := 0 }
def repl : List Byte := replyBytes { src := .mgmt, queue := 0, tag := 9, opcode := 0x0103, status := 0, crc := true, beat := 0, echo := 0 }
def fwd : Flight := { cmd := { pk 0x0103 [] with device := 33 }, priv := 3, phase := .forwarded 9 2 }
def ep (st : EpochState) (pp : Bool): List Epoch := [{ epoch := 7, state := st, slot := some true, changes := 2, prepared := pp }]
def wc (s : State) (f : CmdIf → CmdIf) : State := { s with cif := f s.cif }
def act0 : Activation := { epoch := 7, beat := 200, deadline := 50 }
def tb (f : Time → Time) (s : State) : State := { s with time := f s.time }

/-- Inputs that meet the hypotheses of each clause of Obligations.ParishCommandsComplete. -/
theorem witness_ParishCommandsComplete :
    (∃ (c : Cmd) (s : State), (s.levelHere c = true) ∧ (s.takes 0x0B01 c = true) ∧ (fld (wd c.words 1) 0 3 < 5) ∧
      ((fld (wd c.words 1) 0 3 ≤ 1 → fld (wd c.words 1) 3 14 = 0)) ∧
      ((2 ≤ fld (wd c.words 1) 0 3 → (fld (wd c.words 1) 3 14 ≠ 0 ∧ s.time.source = 2))) ∧
      ((fld (wd c.words 1) 0 3 ≠ 0 → fld (wd c.words 2) 0 16 ≠ 0)) ∧ (2 ≤ fld (wd c.words 2) 16 7) ∧
      (fld (wd c.words 2) 16 7 ≤ 64) ∧ (2 ≤ fld (wd c.words 2) 23 3) ∧ (fld (wd c.words 2) 23 3 ≤ 5)) ∧
    (∃ (c : Cmd) (s : State), (s.levelHere c = true) ∧ (s.takes 0x0B03 c = true) ∧ (fld (wd c.words 1) 1 3 < 4) ∧
      ((fld (wd c.words 1) 5 2 = 1 ∨ fld (wd c.words 1) 5 2 = 2)) ∧
      ((s.parish.role = 1 → (fld (wd c.words 1) 1 3 ≠ 1 ∧ fld (wd c.words 1) 1 3 ≠ 2))) ∧
      (((fld (wd c.words 1) 1 3 = 1 ∨ fld (wd c.words 1) 1 3 = 2) → s.roleTaken (fld (wd c.words 0) 0 10) (fld (wd c.words 1) 1 3) = false)) ∧
      ((fld (wd c.words 1) 1 3 = 3 → (List.filter (fun x => decide (x ≠ fld (wd c.words 0) 0 10)) s.childPorts).length < 128)) ∧
      ((s.port? (fld (wd c.words 0) 0 10)).any fun v => decide (((bit (wd c.words 1) 0 = true → 4134 ≤ v.maxFrame.toNat)))) = true) ∧
    (∃ (c : Cmd) (s : State), (s.levelHere c = true) ∧ (s.takes 0x0B02 c = true)) ∧
    (∃ (c : Cmd) (s : State), (s.levelHere c = true) ∧ (s.takes 0x0B05 c = true)) ∧
    (∃ (c : Cmd) (s : State), (s.levelHere c = true) ∧ (s.takes 0x0B04 c = true) ∧ (bit (wd c.words 0) 0 = false) ∧
      (fld (wd c.words 0) 1 10 < 256) ∧ (fld (wd c.words 0) 11 2 = 0) ∧ (fld (wd c.words 1) 22 10 = 0) ∧
      (fld (wd c.words 1) 0 10 ≠ fld (wd c.words 1) 10 10) ∧ (BitVec.toNat (wd c.words 2) ≤ 3600) ∧
      ((∀ e ∈ s.parish.groups, (e.fst ≠ fld (wd c.words 0) 1 10 → e.snd.working.toNat ≠ fld (wd c.words 1) 0 10)))) ∧
    (∃ (c : Cmd) (s : State), (s.levelHere c = true) ∧ (s.takes 0x0B04 c = true) ∧ (bit (wd c.words 0) 0 = true) ∧
      (fld (wd c.words 1) 25 7 = 0) ∧ (wd c.words 2 = 0)) :=
  ⟨⟨pk 0x0B01 [0, 1, 119 + 4 * 65536 + 2 ^ 23 * 3, 5 + 2 ^ 14 * 51 + 2 ^ 22 * 68], p8u, by decide +kernel⟩,
   ⟨pk 0x0B03 [8, 1 + 2 * 3 + 16 + 32 + 128 * 5], p8u, by decide +kernel⟩,
   ⟨pk 0x0B02 [0], par (fun p => { p with role := 3, managerGen := 9, rejects := 3 }), by decide +kernel⟩,
   ⟨pk 0x0B05 [1], par (fun p => { p with role := 3, children := [(33, { bits := 1, beat := 0 })] }), by decide +kernel⟩,
   ⟨pk 0x0B04 [0 + 2 * 5, 9 + 1024 * 8 + 2 ^ 20, 60], p8u, by decide +kernel⟩,
   ⟨pk 0x0B04 [1 + 2 * 5 + 2048 * 2, 9 + 2 ^ 14 * 7 + 2 ^ 24, 0], p8u, by decide +kernel⟩⟩

/-- Inputs that meet the hypotheses of each clause of Obligations.RiwenRowsComplete. -/
theorem witness_RiwenRowsComplete :
    (∃ (h : Riwen) (s : State), (h.port < 1024) ∧ (h.all = false) ∧ (s.hasRole = true) ∧ ((s.port h.port).riwenEn = true) ∧
      (s.riwenOk h = true) ∧ (h.dstDevice = (s.seeGen h.managerGen).parish.device) ∧
      ((s.seeGen h.managerGen).parish.stored = []) ∧ ((s.seeGen h.managerGen).cif.flights = [])) ∧
    (∃ (h : Riwen) (s : State) (bs : List Byte), (h.port < 1024) ∧ (s.hasRole = true) ∧ ((s.port h.port).riwenEn = true) ∧
      (s.riwenOk h = true) ∧ ((s.seeGen h.managerGen).parish.role = 1) ∧ (replyCrcOk bs = false)) ∧
    (∃ (h : Riwen) (s : State) (bs : List Byte), (h.port < 1024) ∧ (s.hasRole = true) ∧ ((s.port h.port).riwenEn = true) ∧
      (s.riwenOk h = true) ∧ ((s.seeGen h.managerGen).parish.role = 1) ∧ (replyCrcOk bs = true) ∧
      (BitVec.toNat (byteAt bs 0) ≠ stPending) ∧
      ((List.find? (fun f => match f.phase with | Phase.forwarded n resends => decide (n = natAt bs 4 2 % 4096) | x => false) (s.seeGen h.managerGen).cif.flights).any fun f => decide ((f.rejected = false) ∧ (f.discard = false) ∧ (f.cmd.noReply = false))) = true) ∧
    (∃ (h : Riwen) (s : State), (h.port < 1024) ∧ (s.hasRole = true) ∧ ((s.port h.port).riwenEn = true) ∧
      (s.riwenOk h = true) ∧ (s.parish.role ≠ 1) ∧ (s.parish.role ≠ 3)) ∧
    (∃ (h : Riwen) (s : State) (bs : List Byte) (code : BitVec 8) (i : Instr), (h.port < 1024) ∧ (s.hasRole = true) ∧
      ((s.port h.port).riwenEn = true) ∧ (s.riwenOk h = true) ∧ (s.parish.role = 1) ∧
      (((i = Instr.riwenEvent h bs ∧ code = s.parish.eventCode) ∨ (i = Instr.tallySummary h bs ∧ code = s.parish.summaryCode)))) ∧
    (∃ (h : Riwen) (s : State) (bs : List Byte) (typ : Nat) (i : Instr), (h.port < 1024) ∧ (s.hasRole = true) ∧
      ((s.port h.port).riwenEn = true) ∧ (s.riwenOk h = true) ∧
      (((fun code => (s.consumeRiwen h.port code).seeGen h.managerGen) none).relays = true) ∧
      ((((fun code => (s.consumeRiwen h.port code).seeGen h.managerGen) none).upstream).any fun p => decide ((((fun code => (s.consumeRiwen h.port code).seeGen h.managerGen) none).riwenPort p = true) ∧ (((i = Instr.riwenEvent h bs ∧ typ = 3) ∨ (i = Instr.tallySummary h bs ∧ typ = 64))))) = true) ∧
    (∃ (h : Riwen) (s : State), (h.port < 1024) ∧ (s.hasRole = true) ∧ ((s.port h.port).riwenEn = true) ∧
      (s.riwenOk h = true) ∧
      (((s.seeGen h.managerGen).hasUpstream = false ∨ (((s.seeGen h.managerGen).port h.port).portRole ≠ 1 ∧ ((s.seeGen h.managerGen).port h.port).portRole ≠ 2)))) ∧
    (∃ (h : Riwen) (s : State), (h.port < 1024) ∧ (s.hasRole = true) ∧ ((s.port h.port).riwenEn = true) ∧
      (s.riwenOk h = true) ∧ ((s.seeGen h.managerGen).hasUpstream = true) ∧
      ((((s.seeGen h.managerGen).port h.port).portRole = 1 ∨ ((s.seeGen h.managerGen).port h.port).portRole = 2)) ∧
      (((s.seeGen h.managerGen).noteBell h).upstream = some h.port)) ∧
    (∃ (h : Riwen) (s : State), (h.port < 1024) ∧ (s.hasRole = true) ∧ ((s.port h.port).riwenEn = true) ∧
      (s.riwenOk h = true) ∧ (((s.seeGen h.managerGen).port h.port).portRole = 3) ∧
      ((s.seeGen h.managerGen).parish.role = 1) ∧ ((s.seeGen h.managerGen).riwenPort h.port = true) ∧
      (((s.seeGen h.managerGen).port h.port).tx = none)) ∧
    (∃ (h : Riwen) (s : State), (h.port < 1024) ∧ (s.hasRole = true) ∧ ((s.port h.port).riwenEn = true) ∧
      (s.riwenOk h = true) ∧ (((s.seeGen h.managerGen).port h.port).portRole ≠ 3)) ∧
    (∃ (h : Riwen) (s : State) (t1 : Nat) (t4 : Nat), (h.port < 1024) ∧ (s.hasRole = true) ∧
      ((s.port h.port).riwenEn = true) ∧ (s.riwenOk h = true) ∧ (((s.seeGen h.managerGen).port h.port).portRole = 1) ∧
      (match (s.seeGen h.managerGen).parish.reqOut with | some (a, n) => decide (((s.seeGen h.managerGen).time.beatRun ≤ n + 1) ∧ ((t4 - t1) * (s.seeGen h.managerGen).time.beats.toNat ≤ 10 ^ 9 * 65536)) | _ => false) = true) ∧
    (∃ (g : Nat) (h : Riwen) (s : State), g < 4 ∧ (h.port < 1024) ∧ (s.hasRole = true) ∧ ((s.port h.port).riwenEn = true) ∧
      (s.riwenOk h = true) ∧ ((s.seeGen h.managerGen).children.contains h.port = true)) ∧
    (∃ (h : Riwen) (s : State), (h.port < 1024) ∧ (s.hasRole = true) ∧ ((s.port h.port).riwenEn = true) ∧
      (s.riwenOk h = true) ∧ ((s.seeGen h.managerGen).children.contains h.port = false)) ∧
    (∃ (h : Riwen) (s : State), (h.port < 1024) ∧ (s.hasRole = true) ∧ ((s.port h.port).riwenEn = true) ∧
      (s.riwenOk h = true) ∧ ((s.seeGen h.managerGen).parish.role = 1)) ∧
    (∃ (h : Riwen) (s : State) (e : BitVec 16) (d : BitVec 48), (h.port < 1024) ∧ (s.hasRole = true) ∧
      ((s.port h.port).riwenEn = true) ∧ (s.riwenOk h = true) ∧ ((s.seeGen h.managerGen).parish.role ≠ 1) ∧
      ((h.all = true ∨ h.dstDevice = (s.seeGen h.managerGen).parish.device)) ∧
      ((s.seeGen h.managerGen).parish.voted ≠ some (e, d))) ∧
    (∃ (h : Riwen) (s : State), (h.port < 1024) ∧ (s.hasRole = true) ∧ ((s.port h.port).riwenEn = true) ∧
      (s.riwenOk h = true) ∧ ((h.all = true ∨ h.dstDevice = (s.seeGen h.managerGen).parish.device)) ∧
      (match (s.seeGen h.managerGen).parish.voted with | some (e, d) => decide (True) | _ => false) = true) ∧
    (∃ (g : Nat) (h : Riwen) (s : State), g < 4 ∧ (h.port < 1024) ∧ (s.hasRole = true) ∧ ((s.port h.port).riwenEn = true) ∧
      (s.riwenOk h = true) ∧ ((s.seeGen h.managerGen).parish.role = 1) ∧
      ((s.seeGen h.managerGen).children.contains h.port = true) ∧
      (((s.seeGen h.managerGen).parish.act).any fun a => decide ((a.awaitAck = true) ∧ (let e := a.epoch; True))) = true) ∧
    (∃ (h : Riwen) (s : State), (h.port < 1024) ∧ (s.hasRole = true) ∧ ((s.port h.port).riwenEn = true) ∧
      (s.riwenOk h = true) ∧ ((s.seeGen h.managerGen).parish.act = none)) ∧
    (∃ (h : Riwen) (s : State) (e : BitVec 16) (b : BitVec 48), (h.port < 1024) ∧ (s.hasRole = true) ∧
      ((s.port h.port).riwenEn = true) ∧ (s.riwenOk h = true) ∧ ((s.seeGen h.managerGen).parish.role ≠ 1) ∧
      ((s.seeGen h.managerGen).parish.role ≠ 3) ∧ ((h.all = true ∨ h.dstDevice = (s.seeGen h.managerGen).parish.device)) ∧
      (((s.seeGen h.managerGen).epoch? e.toNat).any fun x => decide ((x.prepared = true) ∧ ((s.seeGen h.managerGen).time.tooLate b.toNat = false))) = true) ∧
    (∃ (h : Riwen) (s : State), (h.port < 1024) ∧ (s.hasRole = true) ∧ ((s.port h.port).riwenEn = true) ∧
      (s.riwenOk h = true) ∧ ((s.seeGen h.managerGen).relays = false) ∧
      (((s.seeGen h.managerGen).parish.act).any fun a => decide ((a.awaitAck = true) ∧ (let e := a.epoch; True))) = true) ∧
    (∃ (h : Riwen) (s : State), (h.port < 1024) ∧ (s.hasRole = true) ∧ ((s.port h.port).riwenEn = true) ∧
      (s.riwenOk h = true) ∧ ((s.seeGen h.managerGen).relays = false) ∧ ((s.seeGen h.managerGen).parish.act = none)) ∧
    (∃ (h : Riwen) (s : State) (e : BitVec 16), (h.port < 1024) ∧ (s.hasRole = true) ∧ ((s.port h.port).riwenEn = true) ∧
      (s.riwenOk h = true) ∧ ((s.seeGen h.managerGen).parish.role ≠ 1) ∧ ((s.seeGen h.managerGen).parish.role ≠ 3) ∧
      ((h.all = true ∨ h.dstDevice = (s.seeGen h.managerGen).parish.device)) ∧
      (((s.seeGen h.managerGen).epoch? e.toNat).any fun x => decide ((x.state = EpochState.staging))) = true) ∧
    (∃ (h : Riwen) (s : State), (h.port < 1024) ∧ (s.hasRole = true) ∧ ((s.port h.port).riwenEn = true) ∧
      (s.riwenOk h = true)) :=
  ⟨⟨h0, pr id id, by decide +kernel⟩,
   ⟨h0, pr (fun p => { p with role := 1, device := 0 }) (fun v => { v with portRole := 3 }), repl.set 8 77,
     by decide +kernel⟩,
   ⟨h0, wc (pr (fun p => { p with role := 1, device := 0 }) id) (fun c => { c with flights := [fwd] }), repl,
     by decide +kernel⟩,
   ⟨h0, pr (fun p => { p with role := 4 }) (fun v => { v with portRole := 1 }), by decide +kernel⟩,
   ⟨h0, pr (fun p => { p with role := 1, device := 0 }) (fun v => { v with portRole := 3 }), [], 243,
     Instr.riwenEvent h0 [], by decide +kernel⟩,
   ⟨h0, pr (fun p => { p with primGen := some 0 }) (fun v => { v with portRole := 1 }), [], 3, Instr.riwenEvent h0 [],
     by decide +kernel⟩,
   ⟨h0, pr id id, by decide +kernel⟩,
   ⟨h0, pr (fun p => { p with primGen := some 0 }) (fun v => { v with portRole := 1 }), by decide +kernel⟩,
   ⟨h0, pr (fun p => { p with role := 1, device := 0 }) (fun v => { v with portRole := 3 }), by decide +kernel⟩,
   ⟨h0, pr id id, by decide +kernel⟩,
   ⟨h0, pr (fun p => { p with reqOut := some (7, 1) }) (fun v => { v with portRole := 1 }), 0, 0, by decide +kernel⟩,
   ⟨3, h0, pr id (fun v => { v with portRole := 3 }), by decide +kernel⟩,
   ⟨h0, pr id id, by decide +kernel⟩,
   ⟨h0, pr (fun p => { p with role := 1, device := 0 }) (fun v => { v with portRole := 3 }), by decide +kernel⟩,
   ⟨h0, pr id id, 7, 100, by decide +kernel⟩,
   ⟨h0, pr (fun p => { p with seenPrepare := some 7, voted := some (7, 1) }) id, by decide +kernel⟩,
   ⟨3, h0,
     pr (fun p => { p with role := 1, device := 0, act := some { act0 with awaitAck := true } }) (fun v => { v with portRole := 3 }),
     by decide +kernel⟩,
   ⟨h0, pr id id, by decide +kernel⟩,
   ⟨h0, wc (pr (fun p => { p with role := 4 }) id) (fun c => { c with epochs := ep EpochState.scheduled true }), 7, 100,
     by decide +kernel⟩,
   ⟨h0,
     pr (fun p => { p with role := 1, device := 0, act := some { act0 with awaitAck := true } }) (fun v => { v with portRole := 3 }),
     by decide +kernel⟩,
   ⟨h0, pr (fun p => { p with role := 4 }) (fun v => { v with portRole := 1 }), by decide +kernel⟩,
   ⟨h0, wc (pr (fun p => { p with role := 4 }) id) (fun c => { c with epochs := ep EpochState.staging false }), 7,
     by decide +kernel⟩,
   ⟨h0, pr id id, by decide +kernel⟩⟩

/-- Inputs that meet the hypotheses of each clause of Obligations.ParishTimersComplete. -/
theorem witness_ParishTimersComplete :
    (∃ (s : State), (s.parish.act = none)) ∧
    (∃ (s : State), (s.parish.role = 3) ∧
      ((s.parish.act).any fun a => decide ((a.sent = false) ∧ (s.time.boundary a.deadline.toNat ≤ s.time.ns + (4 - s.parish.depth.toNat) * 50000))) = true) ∧
    (∃ (s : State), (s.parish.role = 1) ∧
      ((s.parish.act).any fun a => decide ((a.awaitAck = false) ∧ (a.deadline.toNat ≤ s.time.beat.toNat))) = true) ∧
    (∃ (s : State), (s.parish.role = 1) ∧
      ((s.parish.act).any fun a => decide ((a.awaitAck = true) ∧ (a.strict = false))) = true) ∧
    (∃ (n : Nat) (k : Nat) (s : State), n < 4096 ∧ k < 8 ∧
      ((List.find? (fun f => match f.phase with | Phase.forwarded t resends => decide (t = n) | x => false) s.cif.flights).any fun f => decide ((f.phase = Phase.forwarded n k))) = true) ∧
    (∃ (n : Nat) (s : State), n < 4096 ∧ (s.cif.flights = [])) ∧
    (∃ (s : State), ((s.parish.role = 3 ∨ s.parish.role = 4)) ∧ (s.parish.lost = false) ∧
      (s.parish.lastRun + s.parish.mgrTimeout.toNat ≤ s.time.beatRun)) ∧
    (∃ (s : State), (s.parish.role ≠ 3) ∧ (s.parish.role ≠ 4)) ∧
    (∃ (s : State), (s.parish.role = 2) ∧ (s.parish.helloSeen = false) ∧
      (s.parish.lastRun + s.parish.mgrTimeout.toNat + 1 ≤ s.time.beatRun)) ∧
    (∃ (s : State), (s.parish.role ≠ 2)) ∧
    (∃ (p : Nat) (s : State), p < 1024 ∧
      ((s.port? p).any fun v => decide ((v.state ≠ LaneState.up) ∧ (v.alarming).isSome = true)) = true) ∧
    (∃ (p : Nat) (s : State), p < 1024 ∧
      ((s.port? p).any fun v => decide ((v.state = LaneState.up) ∧ (v.alarming).isSome = true)) = true) ∧
    (∃ (p : Nat), p < 1024) ∧
    (∃ (g : Nat) (s : State), g < 256 ∧
      ((tget? s.parish.groups g).any fun v => decide ((v.enable = true) ∧ (v.switched = true) ∧ (v.revertive = true) ∧ (s.outOfUse v.working.toNat = false))) = true) ∧
    (∃ (g : Nat) (s : State), g < 256 ∧ (tget? s.parish.groups g = none)) :=
  ⟨⟨p8u, by decide +kernel⟩,
   ⟨tb (fun t => { t with ns := 50000000, beat := 50, beatRun := 50 }) (pr (fun p => { p with act := some act0 }) id),
     by decide +kernel⟩,
   ⟨tb (fun t => { t with ns := 50000000, beat := 50, beatRun := 50 }) (pr (fun p => { p with role := 1, device := 0, act := some act0 }) id),
     by decide +kernel⟩,
   ⟨pr (fun p => { p with role := 1, device := 0, act := some { act0 with awaitAck := true, cmd := some (pk 0x0107 [7, 0, 0]) } }) id,
     by decide +kernel⟩,
   ⟨9, 2, wc (pr (fun p => { p with role := 1, device := 0 }) id) (fun c => { c with flights := [fwd] }), by decide +kernel⟩,
   ⟨4095, p8u, by decide +kernel⟩,
   ⟨tb (fun t => { t with ns := 50000000, beat := 50, beatRun := 50 }) (pr (fun p => { p with act := some act0 }) id),
     by decide +kernel⟩,
   ⟨p8u, by decide +kernel⟩,
   ⟨tb (fun t => { t with ns := 50000000, beat := 50, beatRun := 50 }) (pr (fun p => { p with role := 2 }) id),
     by decide +kernel⟩,
   ⟨p8u, by decide +kernel⟩,
   ⟨8, pr id (fun v => { v with state := LaneState.waitSignal, alarming := some 0 }), by decide +kernel⟩,
   ⟨8, pr id (fun v => { v with alarming := some 3 }), by decide +kernel⟩,
   ⟨1023, by decide +kernel⟩,
   ⟨8,
     withPort (pr (fun p => { p with groups := [(8, { working := 8, protect := 9, enable := true, switched := true })] }) id) 9 up1,
     by decide +kernel⟩,
   ⟨255, p8u, by decide +kernel⟩⟩

end ParishRows

namespace PowerRows

def lev (c : Cmd) (l u : Nat) : Cmd := { c with level := BitVec.ofNat 3 l, unit := BitVec.ofNat 15 u }
def pw (f : Power → Power) : State := { p8u with pwr := f p8u.pwr }
def held : State := runAll p8u [.dieHold (lev (pk 0x0C04 [2]) 1 1)]
def rest : State := runAll held [.dieRelease (lev (pk 0x0C04 [3]) 1 1)]
def le4 (n : Nat) : List Byte := (List.range 4).map fun i => BitVec.ofNat 8 (n / 2 ^ (8 * i))
def imgB (k ver : Nat) (l : Nat := 1) : List Byte := le4 0x43524C46 ++ [1, 0, BitVec.ofNat 8 k, 0] ++ le4 ver ++ [BitVec.ofNat 8 l, 0, 0, 0] ++ le4 1 ++ le4 (32 + 20 + 8192 + 48) ++ le4 0 ++ le4 0 ++ List.replicate (20 + 8192 + 48) 0
def slots (s : State) : State := { s with aon := { s.aon with slotA := ({ state := .complete, central := imgB 0 5, region := imgB 1 5 } : Slot).commit, slotB := ({ state := .complete, central := imgB 0 5 2, region := imgB 1 5 2 } : Slot).commit } }
def ao (f : Aon → Aon) : State := { p8u with aon := f p8u.aon }
def jr1 : JRec := { rtype := 0x0105, seq := 1, counter := 40, payload := [4, 3, 2, 1, 6, 5] }
def jr2 : JRec := { rtype := 0x0106, seq := 2, counter := 41, payload := [4, 3] }
def js : State := ao fun a => { a with journal := [jr1.commitRec, jr2.commitRec] }

theorem one_le_maxLevel : 1 ≤ Config.maxLevel.toNat := by
  unfold Config.maxLevel
  split
  · decide
  · rename_i h
    have : Config.fusedLevel ≠ 0 := fun x => h (Or.inr x)
    have : Config.fusedLevel.toNat ≠ 0 := fun x => this (BitVec.eq_of_toNat_eq (by simpa using x))
    omega

/-- Inputs that meet the hypotheses of each clause of Obligations.PowerRowsComplete. -/
theorem witness_PowerRowsComplete :
    (∃ (c : Cmd) (s : State), (s.takes 0x0C01 c = true)) ∧
    (∃ (c : Cmd) (s : State), (s.takes 0x0C02 c = true) ∧ (60 ≤ fld (wd c.words 1) 0 8) ∧ (fld (wd c.words 1) 0 8 ≤ 125) ∧
      (fld (wd c.words 1) 8 4 ≠ 0)) ∧
    (∃ (c : Cmd) (s : State), (s.takes 0x0C03 c = true)) ∧
    (∃ (c : Cmd) (s : State), (s.takes 0x0C05 c = true) ∧ (fld (wd c.words 1) 1 7 ≤ fld (wd c.words 1) 8 7) ∧
      (fld (wd c.words 1) 8 7 ≤ 100)) ∧
    (∃ (c : Cmd) (s : State), (s.takes 0x0C04 c = true) ∧ (fld (wd c.words 0) 0 2 = 0) ∧ (c.level = 0) ∧
      (s.dieStopped ((if c.level = 1 then c.unit.toNat else fld (wd c.words 0) 2 7) / 64) = false)) ∧
    (∃ (c : Cmd) (s : State), (s.takes 0x0C04 c = true) ∧ (fld (wd c.words 0) 0 2 = 1) ∧ (c.level = 0) ∧
      (s.dieStopped ((if c.level = 1 then c.unit.toNat else fld (wd c.words 0) 2 7) / 64) = false) ∧
      (s.blockUsed (if c.level = 1 then c.unit.toNat else fld (wd c.words 0) 2 7) = false)) ∧
    (∃ (c : Cmd) (s : State), (s.takes 0x0C04 c = true) ∧ (fld (wd c.words 0) 0 2 = 2) ∧ (c.level = 1) ∧
      (fld (wd c.words 0) 2 7 = 0) ∧
      (s.die (1 - if c.level = 1 then c.unit.toNat else fld (wd c.words 0) 2 7) = DieState.running) ∧
      (s.die (if c.level = 1 then c.unit.toNat else fld (wd c.words 0) 2 7) = DieState.running) ∧
      (s.patchesDie (if c.level = 1 then c.unit.toNat else fld (wd c.words 0) 2 7) = false)) ∧
    (∃ (c : Cmd) (s : State), (s.takes 0x0C04 c = true) ∧ (fld (wd c.words 0) 0 2 = 3) ∧ (c.level = 1) ∧
      (fld (wd c.words 0) 2 7 = 0) ∧ (s.die (if c.level = 1 then c.unit.toNat else fld (wd c.words 0) 2 7) = DieState.held)) ∧
    (∃ (c : Cmd) (s : State), (s.started = true) ∧ (s.aon.hold = []) ∧ (5 ≤ s.aon.stage.toNat) ∧ (s.aon.stage ≠ 9) ∧
      ((s.pwr.vid.toNat ≤ 100 ∧ (s.pwr.floor.toNat ≤ s.pwr.ceiling.toNat ∧ s.pwr.ceiling.toNat ≤ 100)))) ∧
    (∃ (c : Cmd) (s : State), ((s.started = false ∨ s.aon.stage.toNat < 5))) ∧
    (∃ (n : Nat) (c : Cmd) (s : State), n < 128 ∧ (s.pwr.ready = true) ∧ (s.dieStopped (n / 64) = false)) ∧
    (∃ (c : Cmd) (s : State), (s.pwr.ready = true)) ∧
    (∃ (c : Cmd) (s : State) (r : DieTraining), (s.aon.hostBoot = false) ∧ (r.die < 2) ∧
      (s.die r.die = DieState.restarting)) ∧
    (∃ (c : Cmd) (s : State) (r : DieTraining), (r.die < 2) ∧ (s.die r.die ≠ DieState.restarting)) :=
  ⟨⟨pk 0x0C01 [], p8u, by decide +kernel⟩,
   ⟨pk 0x0C02 [0, 100 + 256 * 4], p8u, by decide +kernel⟩,
   ⟨pk 0x0C03 [], p8u, by decide +kernel⟩,
   ⟨pk 0x0C05 [0, 1 + 2 * 10 + 256 * 80 + 2 ^ 15 * 7], p8u, by decide +kernel⟩,
   ⟨pk 0x0C04 [0 + 4 * 70], p8, by decide +kernel⟩,
   ⟨pk 0x0C04 [1 + 4 * 70], p8u, by decide +kernel⟩,
   ⟨lev (pk 0x0C04 [2]) 1 1,
     { p8u with arrivals := [{ id := 3, ingress := some 600 }, { id := 4, ingress := some 8 }, { id := 5, ingress := some 8, egress := some 9 }, { id := 6, egress := some 600 }] },
     by decide +kernel⟩,
   ⟨lev (pk 0x0C04 [3]) 1 1, held, by decide +kernel⟩,
   ⟨pk 0x0C01 [], p8u, by decide +kernel⟩,
   ⟨pk 0x0103 [], State.reset, by decide +kernel⟩,
   ⟨127, pk 0x0C01 [], p8u, by decide +kernel⟩,
   ⟨pk 0x0C01 [], p8u, by decide +kernel⟩,
   ⟨pk 0x0103 [], slots rest, { die := 1 }, by decide +kernel⟩,
   ⟨pk 0x0C01 [], p8u, { die := 0 }, by decide +kernel⟩⟩

/-- Inputs that meet the hypotheses of each clause of Obligations.JournalAndIdentityRowsComplete. -/
theorem witness_JournalAndIdentityRowsComplete :
    (∃ (c : Cmd) (s : State), (s.takes 0x0D01 c = true) ∧ (fld (wd c.words 0) 0 2 = 0)) ∧
    (∃ (c : Cmd) (s : State) (r : JRec), (s.takes 0x0D01 c = true) ∧ (s.aon.flashAbsent = false) ∧
      (((fld (wd c.words 0) 0 2 = 1 ∧ List.find? (fun r => decide (BitVec.toNat (wd c.words 1) ≤ r.seq.toNat) && r.committed) s.aon.journal = some r) ∨ (fld (wd c.words 0) 0 2 = 2 ∧ newestRec s.aon.journal (BitVec.toNat (wd c.words 1)) = some r)))) ∧
    (∃ (c : Cmd) (s : State), (s.takes 0x0D02 c = true) ∧ (1 ≤ fld (wd c.words 0) 8 11) ∧ (fld (wd c.words 0) 8 11 ≤ 1024) ∧
      (fld (wd c.words 0) 8 11 ≤ 4 * (c.words.length - 1)) ∧ (s.aon.flashAbsent = false)) ∧
    (∃ (c : Cmd) (s : State), (s.takes 0x0D03 c = true) ∧ (fld (wd c.words 0) 0 2 = 0) ∧ (wd c.words 1 = 0) ∧
      (s.aon.flashAbsent = false) ∧ (s.aon.runs (bit (wd c.words 0) 2) = false) ∧
      ((s.slot (bit (wd c.words 0) 2)).state ≠ SlotState.erasing) ∧ (s.aon.openSlot = none)) ∧
    (∃ (c : Cmd) (s : State), (s.takes 0x0D03 c = true) ∧ (fld (wd c.words 0) 0 2 = 1) ∧ (s.aon.flashAbsent = false) ∧
      (s.aon.runs (bit (wd c.words 0) 2) = false) ∧ ((s.slot (bit (wd c.words 0) 2)).state ≠ SlotState.erasing) ∧
      (s.aon.openSlot = some (bit (wd c.words 0) 2)) ∧
      (fld (wd c.words 1) 0 20 = (if bit (wd c.words 0) 3 = true then (s.slot (bit (wd c.words 0) 2)).region else (s.slot (bit (wd c.words 0) 2)).central).length) ∧
      ((if bit (wd c.words 0) 3 = true then (s.slot (bit (wd c.words 0) 2)).region else (s.slot (bit (wd c.words 0) 2)).central).length + (wordsToBytes (List.drop 2 c.words)).length ≤ slotRoom (bit (wd c.words 0) 3))) ∧
    (∃ (c : Cmd) (s : State), (s.takes 0x0D03 c = true) ∧ (fld (wd c.words 0) 0 2 = 2) ∧ (wd c.words 1 = 0) ∧
      (s.aon.flashAbsent = false) ∧ (s.aon.runs (bit (wd c.words 0) 2) = false) ∧
      ((s.slot (bit (wd c.words 0) 2)).state ≠ SlotState.erasing) ∧ (s.aon.openSlot = some (bit (wd c.words 0) 2))) ∧
    (∃ (c : Cmd) (s : State), (s.takes 0x0D04 c = true) ∧ (s.aon.flashAbsent = false) ∧
      ((s.slot (bit (wd c.words 0) 0)).state = SlotState.complete)) ∧
    (∃ (c : Cmd) (s : State), (s.takes 0x0D05 c = true)) ∧
    (∃ (n : Nat) (c : Cmd) (s : State), n < 2 ∧ ((s.slot (decide (n = 1))).state = SlotState.erasing)) ∧
    (∃ (c : Cmd) (s : State), (s.aon.vaux = true)) ∧
    (∃ (c : Cmd) (s : State), (s.aon.vaux = true) ∧ (s.aon.flashAbsent = false) ∧ (s.aon.powerOn.toNat % 3600 = 0)) ∧
    (∃ (c : Cmd) (s : State), (s.takes 0x0101 c = true)) ∧
    (∃ (c : Cmd) (s : State), (s.takes 0x0102 c = true) ∧ (fld (wd c.words 0) 0 2 = 0) ∧ (fld (wd c.words 0) 2 8 ≠ 0) ∧
      (fld (wd c.words 0) 2 8 ≤ Config.maxLevel.toNat) ∧ (s.aon.openSlot = none) ∧ (s.aon.flashAbsent = false)) ∧
    (∃ (c : Cmd) (s : State), (s.takes 0x0102 c = true) ∧ (fld (wd c.words 0) 0 2 = 1) ∧ (fld (wd c.words 0) 2 8 = 0) ∧
      (s.aon.flashAbsent = false) ∧ ((s.slot !s.aon.running).state = SlotState.complete) ∧
      ((s.aon.armed).any fun l => decide ((byteAt (s.slot !s.aon.running).central 12 = l) ∧ (byteAt (s.slot !s.aon.running).region 12 = l))) = true) ∧
    (∃ (c : Cmd) (s : State), (s.takes 0x0102 c = true) ∧ (fld (wd c.words 0) 0 2 = 2) ∧ (fld (wd c.words 0) 2 8 = 0)) :=
  ⟨⟨pk 0x0D01 [0, 0], js, by decide +kernel⟩,
   ⟨pk 0x0D01 [1, 0], js, jr1.commitRec, by decide +kernel⟩,
   ⟨pk 0x0D02 [5 + 256 * 6, 16909060, 1286], js, by decide +kernel⟩,
   ⟨pk 0x0D03 [0 + 4, 0], js, by decide +kernel⟩,
   ⟨pk 0x0D03 [1 + 4, 0, 7, 8], ao (fun a => { a with slotB := { state := SlotState.writing }, openSlot := some true }),
     by decide +kernel⟩,
   ⟨pk 0x0D03 [2 + 4, 0], ao (fun a => { a with slotB := { state := SlotState.writing }, openSlot := some true }),
     by decide +kernel⟩,
   ⟨pk 0x0D04 [3], slots p8u, by decide +kernel⟩,
   ⟨pk 0x0D05 [], slots p8u, by decide +kernel⟩,
   ⟨1, pk 0x0103 [], ao (fun a => { a with slotB := { state := SlotState.erasing, central := [1] } }), by decide +kernel⟩,
   ⟨pk 0x0D01 [0, 0], js, by decide +kernel⟩,
   ⟨pk 0x0D01 [0, 0], js, by decide +kernel⟩,
   ⟨pk 0x0101 [], js, by decide +kernel⟩,
   ⟨pk 0x0102 [0 + 4 * 1], js, by decide +kernel, by decide +kernel, by decide +kernel,
     Nat.le_trans (by decide +kernel) one_le_maxLevel, by decide +kernel⟩,
   ⟨pk 0x0102 [1], slots (ao (fun a => { a with armed := some 2 })), by decide +kernel⟩,
   ⟨pk 0x0102 [2], ao (fun a => { a with armed := some 2 }), by decide +kernel⟩⟩

end PowerRows

namespace CommandPath

def lev (c : Cmd) (l u : Nat) : Cmd := { c with level := BitVec.ofNat 3 l, unit := BitVec.ofNat 15 u }
def pci (fn : Nat) (c : Cmd) : Cmd := { c with src := .pcie fn }
def wc (s : State) (f : CmdIf → CmdIf) : State := { s with cif := f s.cif }
def ep (st : EpochState) : State := wc p8u fun c => { c with epochs := [{ epoch := 7, state := st, slot := some true, changes := 2, thaw := 0x1000 }] }
def z34 (a b : Nat) : List Nat := [a, b] ++ List.replicate 32 5
def par (f : Parish → Parish) (g : Time → Time): State := { p8u with parish := f { p8u.parish with role := 1 }, time := g p8u.time }
def child : Parish → Parish := fun p => { p with children := [(33, { bits := 1, beat := 0 })] }
def fn0 (f : Func) : State := wc p8u fun c => { c with funcs := [(0, f)] }
def ao (f : Aon → Aon) : State := { p8u with aon := f p8u.aon }
def mb (n : Nat) : Mailbox := { wptr := BitVec.ofNat 9 n, overrun := true, underrun := true, levelHit := true, entries := [(0, [1,2,3])] }
def bs0 : List Byte := encodeCmd (pk 0x0103 [])
def bs1 : List Byte := encodeCmd { pk 0x0103 [] with version := 2 }
def fl : Flight := { cmd := pk 0x0103 [], priv := 3 }
def rp (c : Cmd) : Reply := p8u.mkReply c 0 [] false
def fl2 : Flight := { cmd := pci 0 (pk 0x0103 []), priv := 3 }
def fq (l : List Flight) (r : List Reply := []) : State := wc p8u fun c => { c with flights := l, results := r }
def ent (bs : List Byte) : Mailbox := { wptr := BitVec.ofNat 9 (entries64 bs).length, entries := (entries64 bs).mapIdx fun i b => (i, b) }

/-- Inputs that meet the hypotheses of each clause of Obligations.InterfaceCommandsComplete. -/
theorem witness_InterfaceCommandsComplete :
    (∃ (c : Cmd) (s : State), (s.takes 0x0103 c = true)) ∧
    (∃ (c : Cmd) (s : State), (s.takes 0x0104 c = true) ∧ (s.channelClear c = true)) ∧
    (∃ (c : Cmd) (s : State), (s.takes 0x0105 c = true) ∧ (s.ownFn c (fld (wd c.words 0) 5 4) = true) ∧
      (fld (wd c.words 0) 0 4 ≠ 0) ∧ (12 ≤ fld (wd c.words 1) 1 5) ∧ (fld (wd c.words 1) 1 5 ≤ 24) ∧
      (ringAligned c.words = true) ∧
      ((bit (wd c.words 1) 0 = false → (∀ f ∈ s.cif.flights, (f.cmd.src = Sender.pcie (fld (wd c.words 0) 5 4) → (f.cmd ≠ c → f.rejected = true)))))) ∧
    (∃ (c : Cmd) (s : State), (s.takes 0x0106 c = true) ∧ (fld (wd c.words 0) 0 16 ≠ 0) ∧ (s.levelHere c = true)) ∧
    (∃ (c : Cmd) (s : State), (s.takes 0x0109 c = true) ∧ (fld (wd c.words 0) 0 5 ≠ 0) ∧ (fld (wd c.words 0) 0 5 < 16) ∧
      (fld (wd c.words 1) 1 2 = 0)) ∧
    (∃ (c : Cmd) (s : State), (s.takes 0x0109 c = true) ∧ (fld (wd c.words 0) 0 5 = 16) ∧ (bit (wd c.words 1) 0 = false) ∧
      (fld (wd c.words 1) 1 2 ≤ s.cif.mgmtPriv.toNat)) ∧
    (∃ (c : Cmd) (s : State), (s.takes 0x010A c = true) ∧ (fld (wd c.words 0) 0 5 ≤ 17) ∧
      ((s.cmdPriv c < 3 → fld (wd c.words 0) 0 5 = ownDest c.src)) ∧
      ((16 ≤ fld (wd c.words 0) 0 5 → (bit (wd c.words 1) 14 = false ∧ (fld (wd c.words 1) 15 5 = 0 ∧ (wd64 c.words 2 = 0 ∧ wd64 c.words 4 = 0))))) ∧
      ((bit (wd c.words 1) 14 = true → (16 ≤ fld (wd c.words 1) 15 5 ∧ fld (wd c.words 1) 15 5 ≤ 30)))) ∧
    (∃ (c : Cmd) (s : State) (fn : Nat), (s.takes 0x010B c = true) ∧
      ((bit (wd c.words 1) 0 = true → (16 ≤ fld (wd c.words 1) 1 5 ∧ fld (wd c.words 1) 1 5 ≤ 30))) ∧
      (c.src = Sender.pcie fn)) ∧
    (∃ (c : Cmd) (s : State), (s.takes 0x010C c = true)) ∧
    (∃ (c : Cmd) (s : State), (fld (wd c.words 0) 0 16 ≠ 0) ∧ (s.takes 0x0107 c = true) ∧ (c.level = 0) ∧
      (s.time.tooLate (wd64 c.words 1 % 2 ^ 48) = false) ∧
      ((s.epoch? (fld (wd c.words 0) 0 16)).any fun x => decide ((x.state = EpochState.staging))) = true) ∧
    (∃ (c : Cmd) (s : State), (fld (wd c.words 0) 0 16 ≠ 0) ∧ (s.takes 0x0107 c = true) ∧ (c.level = 0) ∧
      (s.time.tooLate (wd64 c.words 1 % 2 ^ 48) = true) ∧ (c.strictTime = false) ∧
      ((s.epoch? (fld (wd c.words 0) 0 16)).any fun x => decide ((x.state = EpochState.staging))) = true) ∧
    (∃ (c : Cmd) (s : State), (fld (wd c.words 0) 0 16 ≠ 0) ∧ (s.takes 0x0107 c = true) ∧ (c.level = 6) ∧
      (s.parish.role = 1) ∧ (s.parish.deposed = false) ∧ (s.parish.act = none) ∧
      ((((s.epoch? (fld (wd c.words 0) 0 16)).all fun x => decide (x.state = EpochState.staging)) = true))) ∧
    (∃ (c : Cmd) (s : State), (fld (wd c.words 0) 0 16 ≠ 0) ∧ (s.takes 0x0108 c = true) ∧ (c.level = 0) ∧
      ((s.epoch? (fld (wd c.words 0) 0 16)).any fun x => decide (((x.state = EpochState.staging ∨ (x.state = EpochState.scheduled ∧ (x.prepared = false ∧ s.time.tooLate x.thaw.toNat = false)))))) = true) ∧
    (∃ (c : Cmd) (s : State), (fld (wd c.words 0) 0 16 ≠ 0) ∧ (s.takes 0x0108 c = true) ∧ (c.level = 6) ∧
      (s.parish.role = 1) ∧
      ((s.parish.act).any fun a => decide ((a.epoch.toNat = fld (wd c.words 0) 0 16) ∧ (a.awaitAck = false))) = true) ∧
    (∃ (c : Cmd) (s : State), (fld (wd c.words 0) 0 16 ≠ 0) ∧ (s.takes 0x0108 c = true) ∧ (c.level = 6) ∧
      (s.parish.role = 1) ∧ (s.parish.act = none) ∧
      (s.parish.decided.contains (BitVec.ofNat 16 (fld (wd c.words 0) 0 16)) = true)) :=
  ⟨⟨pk 0x0103 [], p8u, by decide +kernel⟩,
   ⟨pk 0x0104 [], p8u, by decide +kernel⟩,
   ⟨pci 0 (pk 0x0105 [3 + 0, 1 + 2 * 14 + 64 * 2, 4096, 0, 8192, 0]), p8u, by decide +kernel⟩,
   ⟨pk 0x0106 [7], p8u, by decide +kernel⟩,
   ⟨pk 0x0109 (z34 3 1), p8u, by decide +kernel⟩,
   ⟨pk 0x0109 (z34 16 4), p8u, by decide +kernel⟩,
   ⟨pk 0x010A [17, 1022, 0, 0, 0, 0], p8u, by decide +kernel⟩,
   ⟨pci 0 (pk 0x010B [1, 1 + 2 * 20, 4096, 0, 8192, 0]), p8u, 0, by decide +kernel⟩,
   ⟨pk 0x010C [243 + 256 * 5], p8u, by decide +kernel⟩,
   ⟨pk 0x0107 [7, 8192, 0], ep EpochState.staging, by decide +kernel⟩,
   ⟨pk 0x0107 [7, 0, 0], ep EpochState.staging, by decide +kernel⟩,
   ⟨lev (pk 0x0107 [7, 8192, 0]) 6 0, par id id, by decide +kernel⟩,
   ⟨pk 0x0108 [7], ep EpochState.staging, by decide +kernel⟩,
   ⟨lev (pk 0x0108 [7]) 6 0,
     par (fun p => { p with act := some { epoch := 7, beat := 8192, deadline := 4, cmd := some (lev (pk 0x0107 [7, 8192, 0]) 6 0) } }) id,
     by decide +kernel⟩,
   ⟨lev (pk 0x0108 [7]) 6 0, par (fun p => { p with decided := [3, 7] }) id, by decide +kernel⟩⟩

/-- Inputs that meet the hypotheses of each clause of Obligations.RegisterRowsComplete. -/
theorem witness_RegisterRowsComplete :
    (∃ (fn : Nat) (q : Nat) (s : State), fn < 16 ∧ q < 16 ∧ (s.cif.pcieUp = true)) ∧
    (∃ (fn : Nat) (s : State), fn < 16 ∧ (s.cif.pcieUp = true)) ∧
    (∃ (fn : Nat) (s : State) (v : BitVec 64), fn < 16 ∧ (s.cif.pcieUp = true) ∧ (12 ≤ v.toNat / 2 % 32) ∧
      (v.toNat / 2 % 32 ≤ 24)) ∧
    (∃ (fn : Nat) (q : Nat) (s : State), fn < 16 ∧ q < 16 ∧ (s.cif.pcieUp = false)) ∧
    (∃ (fn : Nat) (s : State) (v : BitVec 64), fn < 16 ∧ (s.cif.pcieUp = true) ∧ (v.toNat % 4096 = 0)) ∧
    (∃ (s : State), (s.aon.vaux = true)) ∧
    (∃ (s : State) (same : Bool), (s.aon.vaux = true) ∧
      ((if same = true then s.aon.cmdBox.startFill else s.aon.cmdBox.fill) < 256)) ∧
    (∃ (s : State) (same : Bool), (s.aon.vaux = true) ∧
      (256 ≤ if same = true then s.aon.cmdBox.startFill else s.aon.cmdBox.fill)) ∧
    (∃ (s : State), (s.aon.vaux = true) ∧ (s.aon.rplBox.fill ≠ 0)) ∧
    (∃ (s : State), (s.aon.vaux = true) ∧ (s.aon.rplBox.fill = 0)) ∧
    (∃ (s : State), (s.aon.vaux = true) ∧ (s.aon.evtBox.fill ≠ 0)) ∧
    (∃ (s : State), (s.aon.vaux = true) ∧ (s.aon.evtBox.fill = 0)) ∧
    (∃ (s : State) (v : Word), (s.aon.vaux = true) ∧ (bit v 0 = true)) :=
  ⟨⟨15, 15, p8u, by decide +kernel⟩,
   ⟨15, p8u, by decide +kernel⟩,
   ⟨15, p8u, 1 + 2 * 14, by decide +kernel⟩,
   ⟨15, 15, State.reset, by decide +kernel⟩,
   ⟨15, p8u, 0, by decide +kernel⟩,
   ⟨p8u, by decide +kernel⟩,
   ⟨p8u, true, by decide +kernel⟩,
   ⟨ao (fun a => { a with cmdBox := mb 256, rplBox := mb 256, evtBox := mb 256 }), false, by decide +kernel⟩,
   ⟨ao (fun a => { a with cmdBox := mb 5, rplBox := mb 7, evtBox := mb 3, discarding := true }), by decide +kernel⟩,
   ⟨p8u, by decide +kernel⟩,
   ⟨ao (fun a => { a with cmdBox := mb 5, rplBox := mb 7, evtBox := mb 3, discarding := true }), by decide +kernel⟩,
   ⟨p8u, by decide +kernel⟩,
   ⟨p8u, 1, by decide +kernel⟩⟩

/-- Inputs that meet the hypotheses of each clause of Obligations.CommandPathRowsComplete. -/
theorem witness_CommandPathRowsComplete :
    (∃ (fn : Nat) (q : Nat) (s : State) (bs : List Byte), fn < 16 ∧ q < 16 ∧ (s.pwr.ready = true) ∧ (s.cif.pcieUp = true) ∧
      ((s.cmdRing fn q).en = true) ∧ ((s.cmdRing fn q).stopped = false) ∧
      ((s.cmdRing fn q).producer ≠ (s.cmdRing fn q).consumer) ∧
      ((s.rplRing fn (s.cmdRing fn q).replyQ.toNat).blocked = []) ∧
      ((parseCmd (Sender.pcie fn) bs).paramWords.toNat ≤ 1020)) ∧
    (∃ (s : State), (s.aon.vaux = true) ∧ (s.aon.discarding = true) ∧ (s.aon.cmdBox.fill ≠ 0)) ∧
    (∃ (s : State), (s.aon.vaux = true) ∧ (s.aon.discarding = false) ∧ (s.aon.cmdBox.fill ≠ 0) ∧
      ((parseCmd Sender.mgmt (s.aon.cmdBox.take (min s.aon.cmdBox.fill 1)).snd).paramWords.toNat ≤ 1020) ∧
      (entriesOf (cmdBytes (parseCmd Sender.mgmt (s.aon.cmdBox.take (min s.aon.cmdBox.fill 1)).snd).paramWords.toNat (parseCmd Sender.mgmt (s.aon.cmdBox.take (min s.aon.cmdBox.fill 1)).snd).checkCrc) ≤ s.aon.cmdBox.fill)) ∧
    (∃ (s : State) (src : Sender) (q : Nat), (s.pwr.ready = true) ∧
      (match s.cif.flights with | [f] => decide ((f.phase = Phase.waiting) ∧ (f.rejected = false) ∧ (f.cmd.device = s.parish.device) ∧ (f.cmd.atBeat = false) ∧ (s.fenceWait f.cmd = false) ∧ (s.targetStopped f.cmd = false) ∧ (s.unitFault f.cmd = false) ∧ (s.engineHeld (cmdEngine f.cmd) = false) ∧ ((∀ j ∈ s.err.injections, (j.det = dCmdBuf → (j.inst = senderChannel src → j.due = false)))) ∧ (inQueue src q f = true)) | _ => false) = true) ∧
    (∃ (s : State) (src : Sender) (q : Nat), (s.pwr.ready = true) ∧
      (match s.cif.flights with | [f] => decide ((f.phase = Phase.waiting) ∧ (f.rejected = false) ∧ (f.cmd.device = s.parish.device) ∧ (f.cmd.atBeat = true) ∧ (s.fenceWait f.cmd = false) ∧ (s.time.tooLate (s.time.extend f.cmd.low) = false) ∧ ((∀ j ∈ s.err.injections, (j.det = dCmdBuf → (j.inst = senderChannel src → j.due = false)))) ∧ (inQueue src q f = true)) | _ => false) = true) ∧
    (∃ (s : State) (src : Sender) (q : Nat),
      (match s.cif.flights with | [f] => decide ((f.phase = Phase.waiting) ∧ (f.rejected = false) ∧ (f.discard = false) ∧ (s.fenceWait f.cmd = false) ∧ (match s.err.injections with | [j] => decide ((j.det = dCmdBuf) ∧ (j.due = true) ∧ (j.mode = 3) ∧ (j.inst = senderChannel src) ∧ (inQueue src q f = true)) | _ => false) = true) | _ => false) = true) ∧
    (∃ (s : State) (src : Sender) (q : Nat) (f : Flight) (g : Flight), (f.phase = Phase.waiting) ∧
      (inQueue src q f = true) ∧ (f.barrier = false) ∧ (s.cif.flights = [f, g]) ∧ (g.phase = Phase.waiting) ∧
      (inQueue src q g = false) ∧ (g.barrier = false) ∧ (s.fenceWait g.cmd = false) ∧
      (s.turnsTo g.cmd.src g.ring.toNat < s.turnsTo src q)) ∧
    (∃ (s : State) (src : Sender) (q : Nat), ((∀ f ∈ s.cif.flights, (inQueue src q f = true → f.phase ≠ Phase.waiting)))) ∧
    (∃ (s : State) (src : Sender) (q : Nat) (tag : BitVec 12),
      (match s.cif.flights with | [f] => decide ((f.rejected = false) ∧ (f.phase = Phase.running) ∧ (f.discard = false) ∧ (match s.cif.results with | [r] => decide ((answers r f.cmd = true) ∧ ((r.status = 0 → f.cmd.noReply = false)) ∧ (isTag src q tag f = true)) | _ => false) = true) | _ => false) = true) ∧
    (∃ (s : State) (src : Sender) (q : Nat) (tag : BitVec 12) (b : BitVec 48),
      (match s.cif.flights with | [f] => decide ((f.rejected = false) ∧ (s.fenceWait f.cmd = false) ∧ ((s.engine (cmdEngine f.cmd)).causes = []) ∧ (s.targetStopped f.cmd = false) ∧ (s.unitFault f.cmd = false) ∧ (s.engineHeld (cmdEngine f.cmd) = false) ∧ (isTag src q tag f = true) ∧ (f.phase = Phase.stored b) ∧ (b.toNat ≤ s.time.beat.toNat)) | _ => false) = true) ∧
    (∃ (s : State) (q : Nat) (k : Room), (s.aon.vaux = true) ∧
      (match s.cif.flights with | [f] => decide ((f.phase = Phase.done) ∧ (f.pending = none) ∧ ((f.reply).any fun r => decide ((s.aon.rplBox.fill + (entries64 (replyBytes r)).length ≤ 256) ∧ (inQueue Sender.mgmt q f = true) ∧ ((k.same = true → s.aon.rplBox.startFill < 256)))) = true) | _ => false) = true) ∧
    (∃ (s : State) (fn : Nat) (q : Nat), (s.cif.pcieUp = true) ∧
      (match s.cif.flights with | [f] => decide ((f.phase = Phase.done) ∧ (f.pending = none) ∧ ((f.reply).any fun r => decide ((inQueue (Sender.pcie fn) q f = true) ∧ ((s.rplRing fn (s.cmdRing fn q).replyQ.toNat).en = true) ∧ (((s.rplRing fn (s.cmdRing fn q).replyQ.toNat).producer - (s.rplRing fn (s.cmdRing fn q).replyQ.toNat).consumer).toNat + (padBytes (replyBytes r) 64).length ≤ 2 ^ (s.rplRing fn (s.cmdRing fn q).replyQ.toNat).sizeLog2.toNat))) = true) | _ => false) = true) ∧
    (∃ (s : State), (s.cif.flights = [])) :=
  ⟨⟨0, 0, fn0 { cmdRings := [(0, { en := true, producer := 128 }), (8, { en := true, producer := 64 })] }, [],
     by decide +kernel⟩,
   ⟨ao (fun a => { a with cmdBox := mb 5, discarding := true }), by decide +kernel⟩,
   ⟨ao (fun a => { a with cmdBox := ent bs0 }), by decide +kernel⟩,
   ⟨fq [fl], Sender.mgmt, 0, by decide +kernel⟩,
   ⟨fq [{ fl with cmd := { fl.cmd with atBeat := true, low := 500 } }], Sender.mgmt, 0, by decide +kernel⟩,
   ⟨{ fq [fl] with err := { p8u.err with injections := [{ det := 26, inst := 1, mode := 3, count := 0, period := 0, address := 0, duration := 0, pattern := 3, check := 0, aim := 26 }] } },
     Sender.mgmt, 0, by decide +kernel⟩,
   ⟨wc (fq [fl, fl2]) (fun c => { c with nextTurn := 0 }), Sender.mgmt, 0, fl, fl2, by decide +kernel⟩,
   ⟨p8u, Sender.mgmt, 0, by decide +kernel⟩,
   ⟨fq [{ fl with phase := Phase.running }] [rp fl.cmd], Sender.mgmt, 0, 5, by decide +kernel⟩,
   ⟨fq [{ fl with phase := Phase.stored 0 }], Sender.mgmt, 0, 5, 0, by decide +kernel⟩,
   ⟨fq [{ fl with phase := Phase.done, reply := some (rp fl.cmd) }], 0, { consumer := 0, same := false }, by decide +kernel⟩,
   ⟨wc (fn0 { rplRings := [(0, { en := true })] }) (fun c => { c with flights := [{ fl with cmd := pci 0 fl.cmd, phase := Phase.done, reply := some (rp (pci 0 fl.cmd)) }] }),
     0, 0, by decide +kernel⟩,
   ⟨p8u, by decide +kernel⟩⟩

end CommandPath

namespace StartUp

def lev (c : Cmd) (l u : Nat) : Cmd := { c with level := BitVec.ofNat 3 l, unit := BitVec.ofNat 15 u }
def pci (fn : Nat) (c : Cmd) : Cmd := { c with src := .pcie fn }
def wc (s : State) (f : CmdIf → CmdIf) : State := { s with cif := f s.cif }
def ao (f : Aon → Aon) : State := { p8u with aon := f p8u.aon }
def fn0 (f : Func) : State := wc p8u fun c => { c with funcs := [(0, f)] }
def evr : EvRec := { code := 0x0201, source := 0, gen := 0, seq := 0, beat := 0, ns := 0, frac := 0, payload := [1, 2] }
def kk : Pkt := { id := 7, ingress := some 8, len := 200, egress := some 8, qidx := 2, data := List.replicate 196 3 }
def le4 (n : Nat) : List Byte := (List.range 4).map fun i => BitVec.ofNat 8 (n / 2 ^ (8 * i))
def imgB (k ver : Nat) (l : Nat := 1) : List Byte := le4 0x43524C46 ++ [1, 0, BitVec.ofNat 8 k, 0] ++ le4 ver ++ [BitVec.ofNat 8 l, 0, 0, 0] ++ le4 1 ++ le4 (32 + 20 + 8192 + 48) ++ le4 0 ++ le4 0 ++ List.replicate (20 + 8192 + 48) 0
def slots (s : State) : State := { s with aon := { s.aon with slotA := ({ state := .complete, central := imgB 0 5, region := imgB 1 5 } : Slot).commit, slotB := ({ state := .complete, central := imgB 0 5 2, region := imgB 1 5 2 } : Slot).commit } }
def st (n : Nat) (f : Aon → Aon := id) : State := { State.reset with aon := f { vaux := true, stage := BitVec.ofNat 4 n } }

/-- Inputs that meet the hypotheses of each clause of Obligations.EventAndHostRowsComplete. -/
theorem witness_EventAndHostRowsComplete :
    (∃ (n : Nat) (d : Nat) (s : State), n < 5 ∧ d < 18 ∧ (tget s.cif.holds (n * 32 + d) { } = { })) ∧
    (∃ (n : Nat) (s : State) (k : Room), n < 5 ∧ (s.sourceHeld n = false) ∧ (s.aon.vaux = true) ∧
      (s.aon.evtBox.fill < 256) ∧
      (let h := tget s.cif.holds (n * 32 + 16) { }; (match h.held with | r :: rest => decide (((k.same = true → s.aon.evtBox.startFill < 256))) | _ => false) = true)) ∧
    (∃ (n : Nat) (d : Nat) (s : State), n < 5 ∧ d < 16 ∧ (s.sourceHeld n = false) ∧ (s.cif.pcieUp = true) ∧
      ((tget s.cif.dests d { }).ring.en = true) ∧
      (((tget s.cif.dests d { }).ring.producer - (tget s.cif.dests d { }).ring.consumer).toNat + 64 ≤ 2 ^ (tget s.cif.dests d { }).ring.sizeLog2.toNat) ∧
      (let h := tget s.cif.holds (n * 32 + d) { }; (match h.held with | r :: rest => decide (True) | _ => false) = true)) ∧
    (∃ (fn : Nat) (s : State), fn < 16 ∧ (s.cif.pcieUp = true) ∧ ((s.func fn).hostTx.en = true) ∧
      ((s.func fn).hostTx.producer ≠ (s.func fn).hostTx.consumer)) ∧
    (∃ (fn : Nat) (s : State), fn < 16 ∧
      ((s.cif.pcieUp = false ∨ ((s.func fn).hostTx.en = false ∨ (s.func fn).hostTx.producer = (s.func fn).hostTx.consumer)))) ∧
    (∃ (fn : Nat) (s : State), fn < 16 ∧ (s.cif.pcieUp = true) ∧ ((s.func fn).hostRx.en = true) ∧
      (match tget s.tally.hostPath fn [] with | u :: rest => decide ((((s.func fn).hostRx.producer - (s.func fn).hostRx.consumer).toNat + u.bytes.length ≤ 2 ^ (s.func fn).hostRx.sizeLog2.toNat)) | _ => false) = true) ∧
    (∃ (fn : Nat) (s : State), fn < 16 ∧ (tget s.tally.hostPath fn [] = [])) :=
  ⟨⟨4, 17, p8u, by decide +kernel⟩,
   ⟨0,
     wc p8u (fun c => { c with dests := [(0, { ring := { en := true, sizeLog2 := 16 } }), (1, { ring := { en := true, sizeLog2 := 16 } })], holds := [(16, { held := [evr] }), (33, { held := [evr] }), (0, { held := [evr] }), (1, { held := [evr, evr] })] }),
     { consumer := 0, same := false }, by decide +kernel⟩,
   ⟨0, 0,
     wc p8u (fun c => { c with dests := [(0, { ring := { en := true, sizeLog2 := 16 } }), (1, { ring := { en := true, sizeLog2 := 16 } })], holds := [(16, { held := [evr] }), (33, { held := [evr] }), (0, { held := [evr] }), (1, { held := [evr, evr] })] }),
     by decide +kernel⟩,
   ⟨0, fn0 { hostRx := { en := true, sizeLog2 := 16 }, hostTx := { en := true, producer := 64 } }, by decide +kernel⟩,
   ⟨15, p8u, by decide +kernel⟩,
   ⟨0,
     { fn0 { hostRx := { en := true, sizeLog2 := 16 } } with tally := { p8u.tally with hostPath := [(0, [{ pkt := kk, code := 3, trap := true, reason := 4 }])] } },
     by decide +kernel⟩,
   ⟨15, p8u, by decide +kernel⟩⟩

/-- Inputs that meet the hypotheses of each clause of Obligations.StartUpRowsComplete. -/
theorem witness_StartUpRowsComplete :
    (∃ (s : State), (s.aon.vaux = false)) ∧
    (∃ (s : State), (s.aon.vaux = true)) ∧
    (∃ (s : State), (s.inStage 1 = true)) ∧
    (∃ (s : State), (let l := List.replicate 17 true; (s.inStage 2 = true))) ∧
    (∃ (g : Nat) (s : State) (l : List Bool) (m : List Bool), g < 17 ∧ (s.inStage 2 = true) ∧ (l.getD g false = false) ∧
      (m.getD g false = false)) ∧
    (∃ (s : State), (s.inStage 3 = true) ∧ (s.aon.waitHost = false)) ∧
    (∃ (s : State), (s.inStage 4 = true) ∧ (s.aon.hostBoot = false)) ∧
    (∃ (s : State), (s.inStage 4 = true) ∧ (s.aon.hostBoot = true) ∧ (imageCause 1 s.aon.level s.aon.hostRegion ≠ 0)) ∧
    (∃ (s : State), (s.inStage 5 = true)) ∧
    (∃ (s : State), (s.inStage 6 = true)) ∧
    (∃ (s : State), (s.inStage 7 = true)) ∧
    (∃ (s : State), (s.aon.stage = 8)) ∧
    (∃ (s : State), (s.started = true)) ∧
    (∃ (s : State), (s.started = false)) ∧
    (∃ (s : State), (s.pwr.restart = true) ∧ (s.restartReply = false)) ∧
    (∃ (s : State), ((s.pwr.restart = false ∨ s.restartReply = true))) ∧
    (∃ (f : Nat), f < 16) ∧
    (∃ (s : State), (2 ≤ s.aon.stage.toNat)) ∧
    (∃ (s : State) (v : Word), (s.cif.pcieUp = true) ∧ (s.aon.hold = []) ∧
      ((s.aon.stage = 9 ∨ (s.aon.stage = 3 ∧ s.aon.waitHost = true))) ∧ (bit v 0 = true)) ∧
    (∃ (v : Word), (bit v 0 = false)) :=
  ⟨⟨State.reset, by decide +kernel⟩,
   ⟨p8u, by decide +kernel⟩,
   ⟨st 1, by decide +kernel⟩,
   ⟨st 2, by decide +kernel⟩,
   ⟨16, st 2, [], [], by decide +kernel⟩,
   ⟨st 3, by decide +kernel⟩,
   ⟨slots (st 4), by decide +kernel⟩,
   ⟨st 4 (fun a => { a with hostBoot := true }), by decide +kernel⟩,
   ⟨st 5, by decide +kernel⟩,
   ⟨st 6, by decide +kernel⟩,
   ⟨st 7, by decide +kernel⟩,
   ⟨p8u, by decide +kernel⟩,
   ⟨p8u, by decide +kernel⟩,
   ⟨State.reset, by decide +kernel⟩,
   ⟨{ p8u with pwr := { p8u.pwr with restart := true } }, by decide +kernel⟩,
   ⟨p8u, by decide +kernel⟩,
   ⟨15, by decide +kernel⟩,
   ⟨p8u, by decide +kernel⟩,
   ⟨wc (st 9) (fun c => { c with pcieUp := true }), 1, by decide +kernel⟩,
   ⟨0, by decide +kernel⟩⟩

end StartUp

namespace WholeMachine

def lev (c : Cmd) (l u : Nat) : Cmd := { c with level := BitVec.ofNat 3 l, unit := BitVec.ofNat 15 u }
def pci (fn : Nat) (c : Cmd) : Cmd := { c with src := .pcie fn }
def wc (s : State) (f : CmdIf → CmdIf) : State := { s with cif := f s.cif }
def held : State := runAll p8u [.dieHold (lev (pk 0x0C04 [2]) 1 1)]
def held0 : State := runAll p8u [.dieHold (lev (pk 0x0C04 [2]) 1 0)]
def cmds : List Cmd := [pk 0x0101 [], pk 0x0103 [], pk 0x0D01 [0,0], pk 0x0210 [8, 0x114, 0x2400], pk 0x0210 [8, 0x113, 0x2400], pk 0x0507 [130], pk 0x0507 [230], pk 0x0507 [8000], pk 0x0202 [513], pk 0x0202 [8],
  { pk 0x0103 [] with version := 2 }, { pk 0x0103 [] with checkCrc := false }, { pk 0x0103 [] with crcOk := false }, { pk 0x0103 [] with device := 4 }, { pk 0x0103 [] with flagsRsv := 1 }, pk 0x0103 [4], pci 3 (pk 0x0506 [1]), pci 3 (pk 0x0101 []), pci 0 (pk 0x0101 []), pk 0x0802 [9, 1 + 32 * 20, 4096, 0, 8192, 0], pk 0x0C05 [0, 1 + 2 * 90 + 256 * 80 + 2^15 * 7], pk 0x0506 [1], pk 0x0506 [3]]
def mkI (c : Cmd) : List Instr := match c.opcode.toNat with
  | 0x0101 => [.identify c] | 0x0103 => [.nop c] | 0x0D01 => [.journalRead c] | 0x0210 => [.portConfig c] | 0x0507 => [.queueStatus c] | 0x0202 => [.laneStatus c] | 0x0506 => [.bufRegionStatus c] | 0x0802 => [.dumpRingConfig c] | 0x0C05 => [.avsConfig c] | _ => []

/-- What R332 calls a packet whose check word is wrong or left out where it may not be. -/
def BadCrc (c : Cmd) : Prop := ((∀ f, c.src ≠ .pcie f) ∧ c.checkCrc = false) ∨ (c.checkCrc = true ∧ c.crcOk = false)

/-- What R332 calls a packet of a wrong length. -/
def BadLen (c : Cmd) (sp : OpSpec) : Prop :=
  c.words.length ≠ c.paramWords.toNat ∨ 1020 < c.words.length ∨ sp.lens.ok c.words c.paramWords.toNat = false

/-- A row whose packet has its turn and has not been accepted before. -/
def Heard (i : Instr) (op : Nat) (c : Cmd) (s : State) (sp : OpSpec) : Prop :=
  rowPacket i = some (op, c) ∧ c.opcode.toNat = op ∧ opSpec op = some sp ∧ s.pwr.ready = true ∧
    s.channelClear c = true ∧ s.turn c = true ∧ s.accepted c = false

theorem crc_good {c : Cmd} (h : c.checkCrc = true) (g : c.crcOk = true) : ¬ BadCrc c := by
  intro x
  cases x with
  | inl y => rw [h] at y; exact absurd y.2 (by decide)
  | inr y => rw [g] at y; exact absurd y.2 (by decide)

theorem crc_bad {c : Cmd} (h : c.checkCrc = true) (g : c.crcOk = false) : BadCrc c := Or.inr ⟨h, g⟩

/-- A Riwen frame of port 8. -/
def frame : Riwen := { port := 8, version := 1, parishId := 0, managerGen := 0, srcDevice := 0, dstDevice := 0, payloadLen := 64, lenOk := true, all := false, bellGen := 0, depth := 0 }

/-- Port 8 speaks Riwen in a relay. -/
def relay : State := { withPort ready 8 { up1 with riwenEn := true } with parish := { role := 1, device := 3 } }

/-- The rows of ReadsChangeNothing. -/
def reads (c : Cmd) : List Instr :=
  [Instr.identify c, .epochStatus c, .laneFomRead c, .portStatus c, .parseRead c, .tblSearch c, .tblObjStatus c,
    .tblStatus c, .bufRegionStatus c, .bufGlacierStatus c, .gateListRead c, .gateStatus c, .schedQueueStatus c,
    .timeStatus c, .tallyPortRead c, .rateRead c, .errStatus c, .errLogRead c, .stewardStatus c, .stewardTraceRead c,
    .parishStatus c, .parishMemberRead c, .powerStatus c, .clockStatus c, .journalRead c, .imageStatus c, .nop c]

/-- A port that speaks Riwen, alone. -/
def riwenPort : State := { ready with ports := [(8, { up1 with riwenEn := true, maxFrame := 9216 })] }

theorem riwenPort_wide (p : Nat) (u : Port) (h : riwenPort.port? p = some u) : 4134 ≤ u.maxFrame.toNat := by
  unfold State.port? riwenPort at h
  simp only [tget?] at h
  split at h
  · cases h; decide
  · cases h

/-- Inputs that meet the hypotheses of each clause of Obligations.RiwenFramesAreChecked. -/
theorem witness_RiwenFramesAreChecked :
    (∃ (h : Riwen) (s : State) (i : Instr), h.port < 1024 ∧ i = .commitAck h 7 ∧
      (s.hasRole = false ∨ (s.port h.port).riwenEn = false)) ∧
    (∃ (h : Riwen) (s : State) (i : Instr), h.port < 1024 ∧ i = .commitAck h 7 ∧ s.hasRole = true ∧
      (s.port h.port).riwenEn = true ∧ (h.version ≠ 1 ∨ h.parishId ≠ s.parish.parishId ∨ h.lenOk = false)) ∧
    (∃ (s : State) (p len : Nat) (data : List Byte) (check : FrameCheck) (v : Port) (x : Rx), p < 1024 ∧
      s.port? p = some v ∧ v.rx = some x ∧ x.wait = none ∧ x.discard = false ∧ s.isRiwen p data = true ∧
      riwenTypes.contains (byteAt data 15).toNat = false ∧ frameRow len x.maxFrame (v.fcsHolds check) = 7) :=
  ⟨⟨{ frame with port := 1023 }, relay, .commitAck { frame with port := 1023 } 7, by decide, rfl, by decide +kernel⟩,
   ⟨{ frame with version := 2 }, relay, .commitAck { frame with version := 2 } 7, by decide, rfl, by decide +kernel⟩,
   ⟨withPort { ready with parish := { ready.parish with role := 1 } } 8 { up1 with riwenEn := true, rx := some { pktId := 0, stampNs := 5, maxFrame := 0x2400 } },
     8, 64, [0x03, 0x4C, 0x4E, 0, 0, 0, 1, 2, 3, 4, 5, 6, 0x88, 0xB5, 1, 0x55] ++ List.replicate 44 0,
     { fcs := true, symErrs := 0 }, _, _, by decide +kernel, rfl, rfl, by decide +kernel, by decide +kernel,
     by decide +kernel, by decide +kernel, by decide +kernel⟩⟩

/-- Inputs that meet the hypotheses of each clause of Obligations.StepRunsTheFrontCommand. -/
theorem witness_StepRunsTheFrontCommand :
    ∃ (s : State) (i : Instr) (rest : List Instr), s.pending = i :: rest :=
  ⟨{ ready with pending := [.shaperTick, .meterTick] }, .shaperTick, [.meterTick], rfl⟩

/-- Inputs that meet the hypotheses of each clause of Obligations.EmptyQueueAdvancesTheClock. -/
theorem witness_EmptyQueueAdvancesTheClock :
    (∃ (s : State), s.pending = [] ∧ s.timeRuns = false) ∧
    (∃ (s : State), s.pending = [] ∧ s.timeRuns = true ∧ s.time.ns < s.time.boundary (s.time.beat.toNat + 1)) :=
  ⟨⟨State.reset, by decide +kernel⟩,
   ⟨ready, by decide +kernel⟩⟩

/-- Inputs that meet the hypotheses of each clause of Obligations.ResetHoldsTheStatedValues. -/
theorem witness_ResetHoldsTheStatedValues :
    ∃ (f : Nat), f < 16 ∧ (1 ≤ f) :=
  ⟨15, by decide +kernel⟩

/-- Inputs that meet the hypotheses of each clause of Obligations.WellFormedCommandsAnswerAState. -/
theorem witness_WellFormedCommandsAnswerAState :
    ∃ (i : Instr), i.wf = true ∧ ∀ d n, i = .injectionPeriod d n → n < detCount d :=
  ⟨.rxFrameStart 1023, by decide +kernel, fun _ _ h => by cases h⟩

/-- Inputs that meet the hypotheses of each clause of Obligations.EventsOfUnknownObjectsStop. -/
theorem witness_EventsOfUnknownObjectsStop :
    (∃ (n : Nat), 1024 ≤ n) ∧
    (∃ (n : Nat), 4 ≤ n) ∧
    (∃ (n : Nat), 16 ≤ n) :=
  ⟨⟨1024, by decide +kernel⟩,
   ⟨4, by decide +kernel⟩,
   ⟨16, by decide +kernel⟩⟩

/-- Inputs that meet the hypotheses of each clause of Obligations.PacketRoundTrip. -/
theorem witness_PacketRoundTrip :
    (∃ (c : Cmd), (c.words.length = c.paramWords.toNat) ∧ (c.words.length ≤ 1020)) ∧
    (∃ (c : Cmd), (c.words.length = c.paramWords.toNat) ∧ (c.words.length ≤ 1020) ∧ (c.checkCrc = true)) :=
  ⟨⟨pk 0x0101 [], by decide +kernel⟩,
   ⟨pk 0x0101 [], by decide +kernel⟩⟩

/-- Inputs that meet the hypotheses of each clause of Obligations.StepKeepsTheOperatingPoint. -/
theorem witness_StepKeepsTheOperatingPoint :
    ∃ (s : State), ((s.pwr.vid.toNat ≤ 100 ∧ (s.pwr.floor.toNat ≤ s.pwr.ceiling.toNat ∧ s.pwr.ceiling.toNat ≤ 100))) ∧
      (nextOf (step s)).isSome = true :=
  ⟨p8u, by decide +kernel⟩

/-- Inputs that meet the hypotheses of each clause of Obligations.StepKeepsTheBeatRate. -/
theorem witness_StepKeepsTheBeatRate :
    ∃ (s t : State), s.BeatInv ∧ step s = .next t :=
  ⟨{ State.reset with pending := [.shaperTick] }, _, ⟨by unfold legalBeats; decide +kernel, fun _ _ h => by cases h⟩, rfl⟩

/-- Inputs that meet the hypotheses of each clause of Obligations.BeforeReadyOnlyTwoOpcodesRun. -/
theorem witness_BeforeReadyOnlyTwoOpcodesRun :
    (∃ (i : Instr) (s : State),
      (match rowPacket i with | some (op, c) => decide ((c.src ≠ Sender.mgmt) ∧ (s.pwr.ready = false) ∧ (s.channelClear c = true) ∧ (s.turn c = true)) | _ => false) = true) ∧
    (∃ (i : Instr) (s : State),
      (match rowPacket i with | some (op, c) => decide ((c.src = Sender.mgmt) ∧ (c.opcode ≠ 257) ∧ (c.opcode ≠ 3329) ∧ (s.pwr.ready = false) ∧ (s.channelClear c = true) ∧ (s.turn c = true)) | _ => false) = true) ∧
    (∃ (i : Instr) (s : State),
      (match rowPacket i with | some (op, c) => decide ((c.src = Sender.mgmt) ∧ (c.opcode = 257) ∧ (i = Instr.identify c) ∧ (s.pwr.ready = false) ∧ (s.channelClear c = true) ∧ (s.turn c = true) ∧ (s.firstFail 257 c = none) ∧ (s.targetStopped c = false)) | _ => false) = true) :=
  ⟨⟨Instr.bufRegionStatus (pci 3 (pk 0x0506 [1])), State.reset, by decide +kernel⟩,
   ⟨Instr.nop (pk 0x0103 []), State.reset, by decide +kernel⟩,
   ⟨Instr.identify (pk 0x0101 []), State.reset, by decide +kernel⟩⟩

/-- Inputs that meet the hypotheses of each clause of Obligations.FirstFailingCheckDecides. -/
theorem witness_FirstFailingCheckDecides :
    (∃ (i : Instr) (op : Nat) (c : Cmd) (s : State) (sp : OpSpec), Heard i op c s sp ∧ BadCrc c) ∧
    (∃ (i : Instr) (op : Nat) (c : Cmd) (s : State) (sp : OpSpec), Heard i op c s sp ∧ ¬ BadCrc c ∧ c.version ≠ 1) ∧
    (∃ (i : Instr) (op : Nat) (c : Cmd) (s : State) (sp : OpSpec), Heard i op c s sp ∧ ¬ BadCrc c ∧ c.version = 1 ∧
      BadLen c sp) ∧
    (∃ (i : Instr) (op : Nat) (c : Cmd) (s : State) (sp : OpSpec), Heard i op c s sp ∧ ¬ BadCrc c ∧ c.version = 1 ∧
      ¬ BadLen c sp ∧ s.mayRun sp c.src c.words = false) ∧
    (∃ (i : Instr) (op : Nat) (c : Cmd) (s : State) (sp : OpSpec), Heard i op c s sp ∧ ¬ BadCrc c ∧ c.version = 1 ∧
      ¬ BadLen c sp ∧ s.mayRun sp c.src c.words = true ∧ c.device ≠ s.parish.device ∧ s.parish.role ≠ 1 ∧ s.parish.role ≠ 3) ∧
    (∃ (i : Instr) (op : Nat) (c : Cmd) (s : State) (sp : OpSpec), Heard i op c s sp ∧ ¬ BadCrc c ∧ c.version = 1 ∧
      ¬ BadLen c sp ∧ s.mayRun sp c.src c.words = true ∧ c.device = s.parish.device ∧
      (sp.target.ok c.level.toNat c.unit.toNat c.words = false ∨ c.flagsRsv ≠ 0 ∨ usedOk sp.used c.words = false)) :=
  ⟨⟨.nop ({ pk 0x0103 [] with crcOk := false }), 0x0103, { pk 0x0103 [] with crcOk := false }, p8u, _,
     ⟨rfl, by decide +kernel, rfl, by decide +kernel, by decide +kernel, by decide +kernel, by decide +kernel⟩,
     crc_bad (by decide +kernel) (by decide +kernel)⟩,
   ⟨.nop ({ pk 0x0103 [] with version := 2 }), 0x0103, { pk 0x0103 [] with version := 2 }, p8u, _,
     ⟨rfl, by decide +kernel, rfl, by decide +kernel, by decide +kernel, by decide +kernel, by decide +kernel⟩,
     crc_good (by decide +kernel) (by decide +kernel), by decide +kernel⟩,
   ⟨.nop (pk 0x0103 [4]), 0x0103, pk 0x0103 [4], p8u, _,
     ⟨rfl, by decide +kernel, rfl, by decide +kernel, by decide +kernel, by decide +kernel, by decide +kernel⟩,
     crc_good (by decide +kernel) (by decide +kernel), by decide +kernel, (by unfold BadLen; decide +kernel)⟩,
   ⟨.bufRegionStatus (pci 3 (pk 0x0506 [1])), 0x0506, pci 3 (pk 0x0506 [1]), p8u, _,
     ⟨rfl, by decide +kernel, rfl, by decide +kernel, by decide +kernel, by decide +kernel, by decide +kernel⟩,
     crc_good (by decide +kernel) (by decide +kernel), by decide +kernel, (by unfold BadLen; decide +kernel),
     by decide +kernel⟩,
   ⟨.nop ({ pk 0x0103 [] with device := 4 }), 0x0103, { pk 0x0103 [] with device := 4 }, p8u, _,
     ⟨rfl, by decide +kernel, rfl, by decide +kernel, by decide +kernel, by decide +kernel, by decide +kernel⟩,
     crc_good (by decide +kernel) (by decide +kernel), by decide +kernel, (by unfold BadLen; decide +kernel),
     by decide +kernel, by decide +kernel, by decide +kernel, by decide +kernel⟩,
   ⟨.nop ({ pk 0x0103 [] with flagsRsv := 1 }), 0x0103, { pk 0x0103 [] with flagsRsv := 1 }, p8u, _,
     ⟨rfl, by decide +kernel, rfl, by decide +kernel, by decide +kernel, by decide +kernel, by decide +kernel⟩,
     crc_good (by decide +kernel) (by decide +kernel), by decide +kernel, (by unfold BadLen; decide +kernel),
     by decide +kernel, by decide +kernel, by decide +kernel⟩⟩

/-- Inputs that meet the hypotheses of each clause of Obligations.FailedCommandsHaveNoEffect. -/
theorem witness_FailedCommandsHaveNoEffect :
    ∃ (i : Instr) (s : State),
      (match rowPacket i with | some (op, c) => decide ((i ≠ Instr.microcodeLoadEnd c) ∧ (i ≠ Instr.microcodeLoadFromSlot c) ∧ (i ≠ Instr.imageWriteFinish c) ∧ (i ≠ Instr.tblNext c) ∧ (i ≠ Instr.parishActivate c) ∧ ((nextOf (exec i s)).any fun t => decide (((t.cif.results).getLast?.any fun r => decide ((r.status ≠ 0))) = true)) = true) | _ => false) = true :=
  ⟨Instr.nop (pk 0x0103 []), State.reset, by decide +kernel⟩

/-- Inputs that meet the hypotheses of each clause of Obligations.StoppedDieAnswersBusy. -/
theorem witness_StoppedDieAnswersBusy :
    ∃ (d : Nat) (i : Instr) (s : State), d < 2 ∧
      (match rowPacket i with | some (op, c) => decide ((((c.level = 2 ∧ c.unit.toNat / 2 = d) ∨ ((c.level = 3 ∧ c.unit.toNat / 8 = d) ∨ ((c.level = 4 ∧ c.unit.toNat / 64 = d) ∨ (c.level = 5 ∧ (c.unit ≠ 0 ∧ (c.unit.toNat - 1) / 2 = d)))))) ∧ (s.pwr.ready = true) ∧ (s.channelClear c = true) ∧ (s.turn c = true) ∧ (s.firstFail op c = none) ∧ (s.die d ≠ DieState.running)) | _ => false) = true :=
  ⟨1, Instr.laneStatus (pk 0x0202 [513]), held, by decide +kernel⟩

/-- Inputs that meet the hypotheses of each clause of Obligations.ReadsChangeNothing. -/
theorem witness_ReadsChangeNothing :
    ∀ i ∈ reads (pk 0x0103 []), (nextOf (exec i p8u)).isSome = true :=
  by decide +kernel

/-- Inputs that meet the hypotheses of each clause of Obligations.QueuesOfUnconfiguredPortsAreNotFound. -/
theorem witness_QueuesOfUnconfiguredPortsAreNotFound :
    ∃ (c : Cmd) (s : State) (op : Nat) (i : Instr), (s.hasPort (fld (wd c.words 0) 0 14 / 16) = false) ∧
      (s.takes op c = true) ∧
      ((op, i) ∈ [(1283, Instr.bufQueueConfig c), (1287, Instr.queueStatus c), (1538, Instr.schedQueueConfig c), (1546, Instr.schedQueueStatus c)]) :=
  ⟨pk 0x0507 [230], p8u, 1287, Instr.queueStatus (pk 0x0507 [230]), by decide +kernel⟩

/-- Inputs that meet the hypotheses of each clause of Obligations.HostRingsBelongToTheSender. -/
theorem witness_HostRingsBelongToTheSender :
    (∃ (c : Cmd) (s : State) (fn : Nat), (s.takes 0x010B c = true) ∧ (c.src = Sender.pcie fn)) ∧
    (∃ (c : Cmd) (s : State), s.takes 0x010B c = true ∧ (c.src = .mgmt ∨ ∃ d, c.src = .inband d)) :=
  ⟨⟨pci 0 (pk 0x010B [0, 1 + 2 * 20, 4096, 0, 8192, 0]), p8u, 0, by decide +kernel⟩,
   ⟨pk 0x010B [0, 1 + 2 * 20, 4096, 0, 8192, 0], p8u, by decide +kernel, Or.inl rfl⟩⟩

/-- Inputs that meet the hypotheses of each clause of Obligations.InbandPrivilegeNeedsTheManager. -/
theorem witness_InbandPrivilegeNeedsTheManager :
    (∃ (h : Riwen) (s : State), h.port < 1024 ∧ s.hasRole = true ∧ (s.port h.port).riwenEn = true ∧ s.riwenOk h = true ∧
      h.all = false ∧
      (let u := (s.consumeRiwen h.port none).seeGen h.managerGen; h.dstDevice = u.parish.device ∧ u.parish.stored = [] ∧ u.cif.flights = [] ∧ (h.srcDevice = 0 ∧ h.managerGen = u.parish.managerGen))) ∧
    (∃ (h : Riwen) (s : State), h.port < 1024 ∧ s.hasRole = true ∧ (s.port h.port).riwenEn = true ∧ s.riwenOk h = true ∧
      h.all = false ∧
      (let u := (s.consumeRiwen h.port none).seeGen h.managerGen; h.dstDevice = u.parish.device ∧ u.parish.stored = [] ∧ u.cif.flights = [] ∧ ¬ (h.srcDevice = 0 ∧ h.managerGen = u.parish.managerGen))) :=
  ⟨⟨{ frame with dstDevice := 3 }, relay, by decide +kernel⟩,
   ⟨{ frame with dstDevice := 3, srcDevice := 5 }, relay, by decide +kernel⟩⟩

/-- Inputs that meet the hypotheses of each clause of Obligations.RiwenPortsTakeTheLargestFrame. -/
theorem witness_RiwenPortsTakeTheLargestFrame :
    (∃ (c : Cmd) (s : State), (s.takes 0x0B03 c = true) ∧ (s.levelHere c = true) ∧ (bit (wd c.words 1) 0 = true) ∧
      ((s.port? (fld (wd c.words 0) 0 10)).any fun v => decide ((v.maxFrame.toNat < 4134))) = true) ∧
    (∃ (c : Cmd) (s : State), (s.takes 0x0210 c = true) ∧
      ((fld (wd c.words 1) 0 4 = 1 ∨ (fld (wd c.words 1) 0 4 = 2 ∨ (fld (wd c.words 1) 0 4 = 4 ∨ fld (wd c.words 1) 0 4 = 8)))) ∧
      (fld (wd c.words 1) 6 2 ≠ 3) ∧ (1 ≤ fld (wd c.words 1) 8 7) ∧ (fld (wd c.words 1) 8 7 ≤ 64) ∧
      (64 ≤ fld (wd c.words 2) 0 14) ∧ (portOf c % fld (wd c.words 1) 0 4 = 0) ∧
      (((s.lane (portOf c)).anEnable = false → comboOk (fld (wd c.words 1) 0 4) (s.lane (portOf c)).forcedRate.toNat = true)) ∧
      (s.overlaps (portOf c) (fld (wd c.words 1) 0 4) = false) ∧ (fld (wd c.words 2) 0 14 < 4134) ∧
      ((s.port? (portOf c)).any fun v => decide ((v.riwenEn = true))) = true) ∧
    (∃ (s : State) (c : Cmd) (t : State), (∀ p u, s.port? p = some u → u.riwenEn = true → 4134 ≤ u.maxFrame.toNat) ∧
      exec (.relayConfig c) s = .next t) :=
  ⟨⟨pk 0x0B03 [8, 1 + 2 * 3 + 32], withPort ready 8 { up1 with maxFrame := 4000 }, by decide +kernel⟩,
   ⟨pk 0x0210 [8, 273, 4096], withPort ready 8 { up1 with riwenEn := true }, by decide +kernel⟩,
   ⟨riwenPort, pk 0x0B03 [8, 0], _, fun p u h _ => riwenPort_wide p u h, rfl⟩⟩

/-- Inputs that meet the hypotheses of each clause of Obligations.PortsStartOnALaneOfTheirWidth. -/
theorem witness_PortsStartOnALaneOfTheirWidth :
    (∃ (c : Cmd) (s : State), (s.takes 0x0210 c = true) ∧
      ((fld (wd c.words 1) 0 4 = 1 ∨ (fld (wd c.words 1) 0 4 = 2 ∨ (fld (wd c.words 1) 0 4 = 4 ∨ fld (wd c.words 1) 0 4 = 8)))) ∧
      (portOf c % fld (wd c.words 1) 0 4 ≠ 0)) ∧
    (∃ (c : Cmd) (s : State) (q : Nat),
      ((nextOf (exec (Instr.portConfig c) s)).any fun t => decide (((t.port? q).any fun v => decide ((Option.map (fun u => u.width) (s.port? q) ≠ some v.width))) = true)) = true) :=
  ⟨⟨pk 0x0210 [9, 276, 9216], ready, by decide +kernel⟩,
   ⟨pk 0x0210 [8, 276, 9216], ready, 8, by decide +kernel⟩⟩

/-- Inputs that meet the hypotheses of each clause of Obligations.CommandsLeaveTheQueue. -/
theorem witness_CommandsLeaveTheQueue :
    (∃ (i : Instr) (s t : State), exec i s = .next t) ∧
    (∃ (s t : State), step s = .next t ∧ s.pending ≠ []) :=
  ⟨⟨.shaperTick, ready, _, rfl⟩,
   ⟨{ ready with pending := [.shaperTick] }, _, rfl, by decide +kernel⟩⟩

end WholeMachine

end Sys2Proof.Tests
end

section
/-!
PROOFS. Scope (chapter 00): a queue of a port that is not configured (R17), and the starting lane of a port (R16).
-/

namespace Sys2Proof.Machine

/-! ### Commands that fail -/

section Fails

variable {s : State} {c : Cmd} {op st : Nat} {act : State → State × Option Ans}

/-- An action that fails leaves its status as the result and nothing else. -/
theorem runCmd_fail (h : s.takes op c = true) (ha : act s = fail s st) : runCmd op c s act = s.answer c { status := st } :=
  runCmd_done h ha rfl

theorem completes_of_fail {i : Instr} (hi : exec i s = .next (runCmd op c s act)) (h : s.takes op c = true)
    (ha : act s = fail s st) : Completes i s fun t => Replied s t c st [] ∧ Changes [.results] s t := by
  rw [runCmd_fail h ha] at hi
  exact ⟨_, hi, replied_answer s s c _ rfl rfl, answer_changes s c _⟩

end Fails

/-! ### A queue of a port that is not configured (R17) -/

theorem onQueue_unconfigured {c : Cmd} {s : State} (f : Nat → Queue → State × Option Ans)
    (h : s.hasPort (fld (wd c.words 0) 0 14 / 16) = false) : onQueue c s f = fail s stNotFound := by
  simp [onQueue, queuePort, h]

/-- Settles O55: each of the four commands works on its queue through `onQueue`. -/
theorem queuesOfUnconfiguredPortsAreNotFound : Obligations.QueuesOfUnconfiguredPortsAreNotFound := by
  intro c s op i hport hmem htakes
  simp only [List.mem_cons, List.not_mem_nil, or_false, Prod.mk.injEq] at hmem
  rcases hmem with ⟨rfl, rfl⟩ | ⟨rfl, rfl⟩ | ⟨rfl, rfl⟩ | ⟨rfl, rfl⟩
  · exact completes_of_fail (act := bufQueueConfigAct c) rfl htakes (onQueue_unconfigured _ hport)
  · exact completes_of_fail (act := queueStatusAct c) rfl htakes (onQueue_unconfigured _ hport)
  · exact completes_of_fail (act := schedQueueConfigAct c) rfl htakes (onQueue_unconfigured _ hport)
  · exact completes_of_fail (act := schedQueueStatusAct c) rfl htakes (onQueue_unconfigured _ hport)

/-! ### What PORT_CONFIG and RELAY_CONFIG alone set up -/

/-- The fields of a port that no operation but PORT_CONFIG (`portFields`) and RELAY_CONFIG writes. -/
def Port.setup (v : Port) : BitVec 4 × BitVec 14 × Bool := (v.width, v.maxFrame, v.riwenEn)

/-- Which ports a table has, and the setup of each. -/
def portSetups (t : Tab Port) (q : Nat) : Option (BitVec 4 × BitVec 14 × Bool) := (tget? t q).map Port.setup

theorem portSetups_tins (t : Tab Port) (p : Nat) (v : Port) :
    portSetups (tins t p v) = fun q => if q = p then some v.setup else portSetups t q := by
  funext q
  rw [portSetups, tget?_tins]
  split <;> rfl

theorem portSetups_tins_of_some {t : Tab Port} {p : Nat} {v w : Port} (hv : tget? t p = some v)
    (hw : w.setup = v.setup) : portSetups (tins t p w) = portSetups t := by
  rw [portSetups_tins]
  funext q
  split
  · next h => rw [h, portSetups, hv, hw]; rfl
  · rfl

theorem portSetups_tmod {f : Port → Port} (t : Tab Port) (p : Nat) (hf : ∀ v, (f v).setup = v.setup) :
    portSetups (tmod t p f) = portSetups t := by
  unfold tmod
  split
  · next v hv => exact portSetups_tins_of_some hv (hf v)
  · rfl

/-- What every step of a fold over the state leaves alone, the fold leaves alone. -/
theorem foldl_keeps {α β : Type} (g : State → β) (f : State → α → State) (h : ∀ t a, g (f t a) = g t) (l : List α)
    (s : State) : g (l.foldl f s) = g s := by
  induction l generalizing s with
  | nil => rfl
  | cons a l ih => rw [List.foldl_cons, ih, h]

section Keeps

variable (s : State)

/-! ### Operations that leave the table of ports alone -/

@[simp] theorem hold_ports (source dest code : Nat) (payload : List Word) :
    (s.hold source dest code payload).ports = s.ports := by
  simp only [State.hold]; split <;> rfl

@[simp] theorem raise_ports (source code : Nat) (payload : List Word) (port : Option Nat) :
    (s.raise source code payload port).ports = s.ports :=
  foldl_keeps State.ports _ (fun t d => by split <;> simp) _ _

@[simp] theorem raisePort_ports (p code : Nat) (payload : List Word) : (s.raisePort p code payload).ports = s.ports :=
  raise_ports ..

@[simp] theorem raiseDet_ports (code det inst : Nat) (rest : List Word) :
    (s.raiseDet code det inst rest).ports = s.ports := raise_ports ..

@[simp] theorem setDet_ports (det inst : Nat) (d : Detector) : (s.setDet det inst d).ports = s.ports := rfl

@[simp] theorem putInPlace_ports (j : Injection) : (s.putInPlace j).ports = s.ports := rfl

@[simp] theorem logErr_ports (r : LogRec) : (s.logErr r).ports = s.ports := by rw [State.logErr]

@[simp] theorem logNow_ports (det inst addr action discarded : Nat) (uncorr injected : Bool) :
    (s.logNow det inst addr action discarded uncorr injected).ports = s.ports := logErr_ports ..

@[simp] theorem endInjection_ports (j : Injection) : (s.endInjection j).ports = s.ports := by
  simp only [State.endInjection]; split <;> simp

@[simp] theorem useInjection_ports (det inst addr : Nat) : (s.useInjection det inst addr).ports = s.ports := by
  unfold State.useInjection; split <;> simp

@[simp] theorem detect_ports (det inst addr : Nat) (uncorr : Bool) : (s.detect det inst addr uncorr).ports = s.ports := by
  simp only [State.detect, State.detectAs, useInjection_ports]; split <;> simp

@[simp] theorem recovered_ports (det inst addr action duration discarded : Nat) (uncorr injected : Bool) :
    (s.recovered det inst addr action duration discarded uncorr injected).ports = s.ports := by
  simp [State.recovered]

@[simp] theorem detectRecover_ports (det inst addr action discarded : Nat) (uncorr : Bool) :
    (s.detectRecover det inst addr action discarded uncorr).ports = s.ports := by
  simp [State.detectRecover]

@[simp] theorem doubleFree_ports (d i block kind : Nat) : (s.doubleFree d i block kind).ports = s.ports := by
  simp [State.doubleFree]

@[simp] theorem strikePool_ports (j : Injection) : (s.strikePool j).ports = s.ports := by
  simp only [State.strikePool]; split
  · split
    · rfl
    · rw [doubleFree_ports, putInPlace_ports]
  · split
    · rw [modGlacier_ports, putInPlace_ports]
    · rfl

@[simp] theorem poolAccess_ports (d i : Nat) : (s.poolAccess d i).ports = s.ports := by
  unfold State.poolAccess; split <;> simp

@[simp] theorem freeBlock_ports (d i b : Nat) : (s.freeBlock d i b).ports = s.ports := by
  simp only [State.freeBlock]; split <;> simp

@[simp] theorem giveBlock_ports (q : Nat) (k : Pkt) : (s.giveBlock q k).ports = s.ports := by
  unfold State.giveBlock; split <;> simp

@[simp] theorem putBack_ports (q : Nat) (cells : List Nat) : (s.putBack q cells).ports = s.ports := rfl

@[simp] theorem foldKey_ports (region : Nat) (k : TKey) (pkts bytes : Nat) :
    (s.foldKey region k pkts bytes).ports = s.ports := by
  simp only [State.foldKey]; split
  · rfl
  · split
    · rfl
    · split
      · rfl
      · rw [raise_ports]

@[simp] theorem stampLost_ports (q : Nat) (k : Pkt) : (s.stampLost q k).ports = s.ports := by
  unfold State.stampLost; split
  · split <;> simp
  · rfl

@[simp] theorem protectTest_ports (g : Nat) : (s.protectTest g).ports = s.ports := by
  unfold State.protectTest; split
  · rfl
  · split
    · rfl
    · split
      · rw [raise_ports]; rfl
      · split
        · rw [raise_ports]; rfl
        · rfl

@[simp] theorem protectAll_ports : s.protectAll.ports = s.ports := foldl_keeps State.ports _ protectTest_ports _ _

@[simp] theorem modLanes_ports (p : Nat) (f : Lane → Lane) : (s.modLanes p f).ports = s.ports :=
  foldl_keeps State.ports _ (fun t l => modLane_ports t l f) _ _

@[simp] theorem dropLanes_ports (p w : Nat) : (s.dropLanes p w).ports = s.ports :=
  foldl_keeps State.ports _ (fun t l => modLane_ports t l _) _ _

/-! ### Operations that leave the setup of every port alone -/

theorem portSetups_modPort {f : Port → Port} (p : Nat) (hf : ∀ v, (f v).setup = v.setup) :
    portSetups (s.modPort p f).ports = portSetups s.ports := portSetups_tmod s.ports p hf

theorem portSetups_setPort {p : Nat} {v w : Port} (hv : s.port? p = some v) (hw : w.setup = v.setup) :
    portSetups (s.setPort p w).ports = portSetups s.ports := portSetups_tins_of_some hv hw

@[simp] theorem clean_setup (v : Port) : v.clean.setup = v.setup := by unfold Port.clean; split <;> rfl

@[simp] theorem portSetups_mac (p i n : Nat) : portSetups (s.mac p i n).ports = portSetups s.ports := by
  unfold State.mac; split
  · rfl
  · next v hv =>
    have h (m : Tab (BitVec 40)) : portSetups (s.setPort p { v with mac := m }).ports = portSetups s.ports :=
      portSetups_setPort s hv rfl
    generalize (if v.macFrozen.contains i then (v.mac, 0, false) else stat40 v.mac i n) = r
    dsimp only
    split
    · rw [raisePort_ports, h]
    · rw [h]

@[simp] theorem portSetups_macTxGood (p len : Nat) (dst : List Byte) :
    portSetups (s.macTxGood p len dst).ports = portSetups s.ports := by
  simp [State.macTxGood]

@[simp] theorem portSetups_rateAdd (p i n : Nat) : portSetups (s.rateAdd p i n).ports = portSetups s.ports :=
  portSetups_modPort s p fun v => by split <;> rfl

@[simp] theorem portSetups_countTx (p : Nat) (cls : Option Nat) (len : Nat) :
    portSetups (s.countTx p cls len).ports = portSetups s.ports := by
  simp [State.countTx]

@[simp] theorem portSetups_emitPause (p n quanta : Nat) :
    portSetups (s.emitPause p n quanta).ports = portSetups s.ports := by
  have h (t : State) (at_ : Option Nat) :
      portSetups (t.modPort p fun v => (v.xoffAt n at_).clean).ports = portSetups t.ports :=
    portSetups_modPort t p fun v => clean_setup _
  simp only [State.emitPause]
  split <;> simp [-modPort_ports, h]

@[simp] theorem portSetups_sendPause (p n quanta : Nat) :
    portSetups (s.sendPause p n quanta).ports = portSetups s.ports := by
  unfold State.sendPause; split
  · rfl
  · split
    · exact portSetups_modPort s p fun _ => rfl
    · split
      · exact portSetups_modPort s p fun _ => rfl
      · exact portSetups_emitPause ..

@[simp] theorem portSetups_xoffTest (p n : Nat) : portSetups (s.xoffTest p n).ports = portSetups s.ports := by
  unfold State.xoffTest; split
  · rfl
  · next v hv =>
    dsimp only
    split
    · rfl
    · split
      · rw [portSetups_sendPause]; exact portSetups_setPort s hv rfl
      · split
        · rw [portSetups_sendPause]; exact portSetups_setPort s hv rfl
        · rfl

@[simp] theorem portSetups_xoffAll (p : Nat) : portSetups (s.xoffAll p).ports = portSetups s.ports :=
  foldl_keeps (fun t => portSetups t.ports) _ (fun t n => portSetups_xoffTest t p n) _ _

theorem portSetups_modAccount {f : Port → Port} (p : Nat) (hf : ∀ v, (f v).setup = v.setup) :
    portSetups (s.modAccount p f).ports = portSetups s.ports := by
  unfold State.modAccount; split
  · exact portSetups_modPort s p hf
  · rfl

@[simp] theorem portSetups_ingAdd (k : Pkt) (d : Int) : portSetups (s.ingAdd k d).ports = portSetups s.ports := by
  unfold State.ingAdd; split
  · rfl
  · rw [portSetups_xoffTest]; exact portSetups_modAccount s _ fun _ => rfl

@[simp] theorem portSetups_freeCells (q : Nat) (k : Pkt) (c : Charge) :
    portSetups (s.freeCells q k c).ports = portSetups s.ports := by
  simp only [State.freeCells, portSetups_ingAdd, modRegion_ports]
  exact portSetups_modPort _ _ fun _ => rfl

@[simp] theorem portSetups_freePkt (q : Nat) (k : Pkt) : portSetups (s.freePkt q k).ports = portSetups s.ports := by
  simp [State.freePkt]

@[simp] theorem portSetups_owe (p region : Nat) (key : TKey) (trunc : Option Nat) :
    portSetups (s.owe p region key trunc).ports = portSetups s.ports := portSetups_modPort s p fun _ => rfl

@[simp] theorem portSetups_comeBack (p region len copy : Nat) :
    portSetups (s.comeBack p region len copy).ports = portSetups s.ports := by
  unfold State.comeBack; split
  · exact portSetups_modPort s p fun _ => rfl
  · rfl

@[simp] theorem portSetups_fold (region : Nat) (k : Pkt) (d : Disp) (reason egress bytes : Nat) :
    portSetups (s.fold region k d reason egress bytes).ports = portSetups s.ports := by
  unfold State.fold; split
  · rfl
  · rw [portSetups_comeBack]; split <;> simp

@[simp] theorem portSetups_dropQueued (q : Nat) (k : Pkt) (reason : Nat) :
    portSetups (s.dropQueued q k reason).ports = portSetups s.ports := by
  rw [State.dropQueued, stampLost_ports, State.dropHeld]
  split <;> simp [State.dropOut]

@[simp] theorem portSetups_cutTx (p : Nat) : portSetups (s.cutTx p).ports = portSetups s.ports := by
  unfold State.cutTx
  generalize hr : List.foldl _ (s.modPort p _) _ = r
  have h : portSetups r.ports = portSetups s.ports := by
    rw [← hr]
    refine (foldl_keeps (fun t => portSetups t.ports) _ (fun t f => ?_) _ _).trans
      (portSetups_modPort s p fun _ => rfl)
    cases f with
    | pause n _ => exact portSetups_modPort t p fun _ => rfl
    | _ => rfl
  dsimp only
  split
  · exact h
  · rw [portSetups_dropQueued, ← h]
    exact portSetups_modPort r p fun _ => rfl

@[simp] theorem portSetups_takeDown (p : Nat) (st : LaneState) (cause : Option Nat) :
    portSetups (s.takeDown p st cause).ports = portSetups s.ports := by
  unfold State.takeDown
  split
  · rfl
  · dsimp only
    split
    · rw [protectAll_ports, modLanes_ports, ← portSetups_cutTx s p]
      exact portSetups_modPort _ p fun _ => rfl
    · rw [modLanes_ports]
      exact portSetups_modPort s p fun _ => rfl

@[simp] theorem portSetups_fcModeChanged (p : Nat) : portSetups (s.fcModeChanged p).ports = portSetups s.ports := by
  rw [State.fcModeChanged, portSetups_xoffAll]
  exact portSetups_modPort s p fun _ => rfl

@[simp] theorem portSetups_adminState (p : Nat) (wasUp : Bool) :
    portSetups (s.adminState p wasUp).ports = portSetups s.ports := by
  have hset (t : State) (st : LaneState) : portSetups (t.modPort p fun w => { w with state := st }).ports = portSetups t.ports :=
    portSetups_modPort t p fun _ => rfl
  simp only [State.adminState]
  split
  · exact hset s .test
  · split
    · split
      · exact (hset _ _).trans (congrArg portSetups (modLanes_ports ..))
      · rfl
    · split
      · exact portSetups_takeDown ..
      · exact (hset _ _).trans (congrArg portSetups (modLanes_ports ..))

end Keeps

/-! ### The starting lane of a port (R16) -/

/-- The width field of PORT_CONFIG names a width that a port can have. -/
def widthOk (w : Nat) : Prop := w = 1 ∨ w = 2 ∨ w = 4 ∨ w = 8

theorem portConfigAct_misplaced {c : Cmd} (s : State) (h : portOf c % fld (wd c.words 1) 0 4 ≠ 0) :
    portConfigAct c s = fail s stBadParam := by
  simp only [portConfigAct]
  split
  · rfl
  · exact if_pos (.inl h)

theorem port_of_none {s : State} {p : Nat} (h : s.port? p = none) : s.port p = {} := congrArg (·.getD {}) h

theorem port_of_some {s : State} {p : Nat} {v : Port} (h : s.port? p = some v) : s.port p = v := congrArg (·.getD {}) h

theorem portFields_setup (w1 w2 : Word) (v : Port) :
    (portFields w1 w2 v).setup = (BitVec.ofNat 4 (fld w1 0 4), BitVec.ofNat 14 (fld w2 0 14), v.riwenEn) := rfl

/-- What PORT_CONFIG can do to the setup of the ports: nothing, or it sets up the port that it names, with a width that
divides the port's number (R16), and with RIWEN_EN only as R412 allows. -/
def SetsUp (c : Cmd) (s t : State) : Prop :=
  let p := portOf c
  let w := fld (wd c.words 1) 0 4
  let maxF := fld (wd c.words 2) 0 14
  portSetups t.ports = portSetups s.ports ∨
  (widthOk w ∧ p % w = 0 ∧ ((s.port p).riwenEn = true → 4134 ≤ maxF) ∧
    portSetups t.ports =
      fun q => if q = p then some (BitVec.ofNat 4 w, BitVec.ofNat 14 maxF, (s.port p).riwenEn) else portSetups s.ports q)

theorem portConfigAct_setsUp (c : Cmd) (s : State) : SetsUp c s (portConfigAct c s).1 := by
  unfold SetsUp
  intro p w maxF
  simp only [portConfigAct]
  split
  · exact .inl rfl
  next hfields =>
  split
  · exact .inl rfl
  next hlane =>
  have hw : widthOk w := by unfold widthOk; omega
  have hp : p % w = 0 := Decidable.byContradiction fun h => hlane (.inl h)
  split
  · exact .inl rfl
  split
  · next hnone =>
    have hoff : (s.port p).riwenEn = false := by rw [port_of_none hnone]
    split
    · exact .inl rfl
    refine .inr ⟨hw, hp, by simp [hoff], ?_⟩
    simp only [done, portSetups_xoffAll, portSetups_adminState, setPort_ports, portSetups_tins, hoff]
    split <;> rfl
  · next old hold =>
    have hport : s.port p = old := port_of_some hold
    split
    · exact .inl rfl
    split
    · exact .inl rfl
    next hmax =>
    refine .inr ⟨hw, hp, fun h => Nat.le_of_not_lt fun hlt => hmax ⟨hport ▸ h, hlt⟩, ?_⟩
    simp only [done, portSetups_adminState]
    split <;> simp [portSetups_tins, portFields_setup, hport, p, w, maxF]

theorem execPortConfig_setsUp {c : Cmd} {s t : State} (h : execPortConfig c s = .next t) : SetsUp c s t := by
  cases h
  exact runCmd_keeps (.inl rfl) (fun _ _ h => h) (fun u h => by rwa [SetsUp, commits_ports]) (portConfigAct_setsUp c s)

theorem portSetups_of_port? {s : State} {q : Nat} {v : Port} (h : s.port? q = some v) :
    portSetups s.ports q = some v.setup := congrArg (·.map Port.setup) h

theorem width_of_portSetups {s : State} {q : Nat} {v : Port} (h : portSetups s.ports q = some v.setup) :
    (s.port? q).map (fun u => u.width) = some v.width := by
  have := congrArg (·.map Prod.fst) h
  rwa [portSetups, Option.map_map] at this

/-- A port of a legal width on a lane divisible by it lies within one port block. -/
theorem block_of_placed {q w : Nat} (hw : widthOk w) (hq : q % w = 0) : q / 8 = (q + w - 1) / 8 := by
  rcases hw with rfl | rfl | rfl | rfl <;> omega

theorem toNat_of_widthOk {w : Nat} (hw : widthOk w) : (BitVec.ofNat 4 w).toNat = w := by
  rcases hw with rfl | rfl | rfl | rfl <;> rfl

/-- Settles O59: the checks of `portConfigAct`, and all that it can do to the setup of the ports (`SetsUp`). -/
theorem portsStartOnALaneOfTheirWidth : Obligations.PortsStartOnALaneOfTheirWidth := by
  intro c s
  refine ⟨fun htakes _ hmis => completes_of_fail rfl htakes (portConfigAct_misplaced s hmis), ?_⟩
  intro t ht q v hv hnew
  have hq := portSetups_of_port? hv
  rcases execPortConfig_setsUp ht with hsame | ⟨hw, hp, -, hset⟩
  · exact absurd (width_of_portSetups (hsame ▸ hq)) hnew
  · replace hq := (congrFun hset q).symm.trans hq
    split at hq
    · next h =>
      have hwidth : BitVec.ofNat 4 (fld (wd c.words 1) 0 4) = v.width := congrArg Prod.fst (Option.some.inj hq)
      rw [← hwidth, toNat_of_widthOk hw, h]
      exact ⟨hp, block_of_placed hw hp⟩
    · exact absurd (width_of_portSetups hq) hnew

end Sys2Proof.Machine
end

section
/-!
PROOFS. Command interface (chapter 10): HOST_RING_CONFIG and the sender's own rings (R466).
-/

namespace Sys2Proof.Machine

/-! ### What a row leaves unchanged, for one row after another -/

theorem Part.same_refl (p : Part) (s : State) : p.same s s := by cases p <;> rfl

theorem Part.same_trans {p : Part} {s t u : State} (h : p.same s t) (h' : p.same t u) : p.same s u := by
  cases p <;> exact h'.trans h

theorem changes_refl (ps : List Part) (s : State) : Changes ps s s := fun p _ => p.same_refl s

theorem Changes.mono {ps qs : List Part} {s t : State} (h : Changes ps s t) (hsub : ps ⊆ qs) : Changes qs s t :=
  fun p hp => h p fun hmem => hp (hsub hmem)

theorem Changes.trans {ps : List Part} {s t u : State} (h : Changes ps s t) (h' : Changes ps t u) : Changes ps s u :=
  fun p hp => Part.same_trans (h p hp) (h' p hp)

theorem setFunc_changes (s : State) (f : Nat) (v : Func) : Changes [.funcs] s (s.setFunc f v) := by
  intro p hp
  cases p with
  | funcs => exact absurd (List.mem_singleton_self _) hp
  | _ => rfl

theorem func_setFunc_of_ne (s : State) {f g : Nat} (v : Func) (h : g ≠ f) : (s.setFunc f v).func g = s.func g := by
  rw [State.func, setFunc_funcs, tget_tset, if_neg h, State.func]

/-! ### The host rings of one function (R466) -/

/-- From `s` to `t` nothing changes but the results and, of the functions, the host rings of `fn`. -/
def OnlyHostRings (fn : Nat) (s t : State) : Prop :=
  Changes [.results, .funcs] s t ∧ (∀ g, g ≠ fn → t.func g = s.func g) ∧
  { t.func fn with hostRx := (s.func fn).hostRx, hostTx := (s.func fn).hostTx, hostDoorbell := (s.func fn).hostDoorbell } = s.func fn

theorem onlyHostRings_refl (fn : Nat) (s : State) : OnlyHostRings fn s s :=
  ⟨changes_refl _ s, fun _ _ => rfl, rfl⟩

theorem OnlyHostRings.answer {fn : Nat} {s t : State} (h : OnlyHostRings fn s t) (c : Cmd) (a : Ans) :
    OnlyHostRings fn s (t.answer c a) := by
  obtain ⟨hch, hothers, hown⟩ := h
  exact ⟨hch.trans ((answer_changes t c a).mono (by simp)), hothers, hown⟩

/-- The function's new record keeps all but its host rings. -/
theorem onlyHostRings_setFunc {fn : Nat} {s : State} {v : Func}
    (hv : { v with hostRx := (s.func fn).hostRx, hostTx := (s.func fn).hostTx, hostDoorbell := (s.func fn).hostDoorbell } = s.func fn) :
    OnlyHostRings fn s (s.setFunc fn v) :=
  ⟨(setFunc_changes s fn v).mono (by simp), fun _ hg => func_setFunc_of_ne s v hg, by rwa [func_setFunc]⟩

/-- From a PCIe function the action always answers: it refuses the size, or sets up that function's transmit or
receive ring. -/
theorem hostRingConfigAct_pcie {c : Cmd} {fn : Nat} (s : State) (hsrc : c.src = .pcie fn) :
    ∃ t a, hostRingConfigAct c s = (t, some a) ∧ OnlyHostRings fn s t := by
  simp only [hostRingConfigAct, hsrc]
  split
  · exact ⟨_, _, rfl, onlyHostRings_refl fn s⟩
  · split
    · exact ⟨_, _, rfl, onlyHostRings_setFunc rfl⟩
    · exact ⟨_, _, rfl, onlyHostRings_setFunc rfl⟩

theorem hostRingConfigAct_not_pcie {c : Cmd} (s : State) (hsrc : c.src = .mgmt ∨ ∃ d, c.src = .inband d) :
    hostRingConfigAct c s = fail s stBadParam := by
  rcases hsrc with hsrc | ⟨d, hsrc⟩ <;> simp only [hostRingConfigAct, hsrc]

/-- Settles O56, by the sender of the command: `OnlyHostRings` of a PCIe function, a failing action of the others. -/
theorem hostRingsBelongToTheSender : Obligations.HostRingsBelongToTheSender := by
  intro c s htakes
  refine ⟨fun fn hsrc => ?_, fun hsrc => completes_of_fail rfl htakes (hostRingConfigAct_not_pcie s hsrc)⟩
  obtain ⟨t, a, hact, honly⟩ := hostRingConfigAct_pcie s hsrc
  have htbl : t.tbl = s.tbl := honly.1 .tbl (by decide)
  have hrun : runCmd 0x010B c s (hostRingConfigAct c) = t.answer c a := runCmd_done htakes hact (by rw [htbl])
  exact ⟨t.answer c a, congrArg Host.Outcome.next hrun, honly.answer c a⟩

end Sys2Proof.Machine
end

section
/-!
PROOFS. Parish (chapter 13): the privilege of in-band commands (R419, R427), and the MAX_FRAME of a port with RIWEN_EN (R412).
-/

namespace Sys2Proof.Machine

/-! ### The highest MANAGER_GEN seen (R427) -/

@[simp] theorem hold_parish (s : State) (source dest code : Nat) (payload : List Word) :
    (s.hold source dest code payload).parish = s.parish := by
  simp only [State.hold]; split <;> rfl

@[simp] theorem raise_parish (s : State) (source code : Nat) (payload : List Word) (port : Option Nat) :
    (s.raise source code payload port).parish = s.parish :=
  foldl_keeps State.parish _ (fun t d => by split <;> simp) _ _

theorem seeGen_managerGen (s : State) (g : BitVec 16) :
    (s.seeGen g).parish.managerGen.toNat = max s.parish.managerGen.toNat g.toNat := by
  unfold State.seeGen
  split
  · next hle => exact (Nat.max_eq_left hle).symm
  · next hlt =>
    rw [Nat.max_eq_right (Nat.le_of_not_le hlt)]
    dsimp only
    split
    · rw [raise_parish]
    · rfl

/-! ### In-band commands (R411, R419) -/

/-- A frame of this parish, on a port that takes Riwen frames, is heard once its MANAGER_GEN is seen. -/
theorem onRiwen_heard {h : Riwen} {s : State} (f : State → State) (hport : h.port < 1024) (hrole : s.hasRole = true)
    (hen : (s.port h.port).riwenEn = true) (hok : s.riwenOk h = true) :
    onRiwen h s f = .next (f (s.seeGen h.managerGen)) := by
  simp [onRiwen, onNum, hport, hrole, hen, hok]

/-- A packet that arrives is one more flight, with the privilege of its channel as it stands (R328). -/
theorem accept_flights (s : State) (c : Cmd) (forced : Option Nat) (q : Nat) :
    ∃ f, (s.accept c forced q).cif.flights = s.cif.flights ++ [f] ∧ f.cmd = c ∧ f.priv = s.privilege c.src := by
  simp only [State.accept]
  split
  · exact ⟨_, rfl, rfl, rfl⟩
  · exact ⟨_, rfl, rfl, rfl⟩

theorem inbandCommand_new {s : State} (h : Riwen) (bs : List Byte) (hstored : s.parish.stored = [])
    (hflights : s.cif.flights = []) : s.inbandCommand h bs = s.accept (parseCmd (s.inbandSender h) bs) := by
  simp [State.inbandCommand, hstored, hflights]

@[simp] theorem privilege_inband (s : State) (d : Nat) : s.privilege (.inband d) = if d = 0 then 3 else 0 := rfl

theorem privilege_inbandSender (s : State) (h : Riwen) :
    s.privilege (s.inbandSender h) = if h.srcDevice = 0 ∧ h.managerGen = s.parish.managerGen then 3 else 0 := by
  unfold State.inbandSender
  by_cases hdev : h.srcDevice = 0
  · by_cases hgen : h.managerGen = s.parish.managerGen <;> simp [hdev, hgen]
  · have hnat : h.srcDevice.toNat ≠ 0 := fun h0 => hdev (BitVec.eq_of_toNat_eq h0)
    simp only [if_pos hdev, privilege_inband, if_neg hnat, hdev, false_and, if_false]

/-- Settles O57: the command becomes the one flight, with the privilege of `inbandSender`. -/
theorem inbandPrivilegeNeedsTheManager : Obligations.InbandPrivilegeNeedsTheManager := by
  intro h bs s hport hrole hen hok hone u hme hstored hflights
  have hforMe : u.forMe h = true := by simp [State.forMe, hme]
  have hexec : execRiwenCommand h bs s = .next (u.accept (parseCmd (u.inbandSender h) bs)) := by
    rw [execRiwenCommand, onRiwen_heard _ hport hrole hen hok, if_neg (by simp [hone]), if_pos hforMe,
      inbandCommand_new h bs hstored hflights]
  obtain ⟨f, hf, -, hpriv⟩ := accept_flights u (parseCmd (u.inbandSender h) bs) none 0
  exact ⟨_, hexec, f, by rw [hf, hflights, List.nil_append], hpriv.trans (privilege_inbandSender u h),
    seeGen_managerGen s h.managerGen⟩

/-! ### The MAX_FRAME of a port with RIWEN_EN (R412) -/

theorem relayConfigAct_shortFrame {c : Cmd} {s : State} {v : Port} (hlevel : s.levelHere c = true)
    (hv : s.port? (fld (wd c.words 0) 0 10) = some v) (hen : bit (wd c.words 1) 0 = true) (hmax : v.maxFrame.toNat < 4134) :
    relayConfigAct c s = fail s stBadParam := by
  simp [relayConfigAct, hlevel, hv, hen, hmax]

/-- PORT_CONFIG, past its checks of fields, lane and overlap, on a port with RIWEN_EN. -/
theorem portConfigAct_shortFrame {c : Cmd} {s : State} {v : Port} (hw : widthOk (fld (wd c.words 1) 0 4))
    (hfc : fld (wd c.words 1) 6 2 ≠ 3) (hct : 1 ≤ fld (wd c.words 1) 8 7) (hct' : fld (wd c.words 1) 8 7 ≤ 64)
    (hmin : 64 ≤ fld (wd c.words 2) 0 14) (hp : portOf c % fld (wd c.words 1) 0 4 = 0)
    (hforced : (s.lane (portOf c)).anEnable = false →
      comboOk (fld (wd c.words 1) 0 4) (s.lane (portOf c)).forcedRate.toNat = true)
    (hover : s.overlaps (portOf c) (fld (wd c.words 1) 0 4) = false) (hv : s.port? (portOf c) = some v)
    (hen : v.riwenEn = true) (hmax : fld (wd c.words 2) 0 14 < 4134) :
    portConfigAct c s = fail s stBusy := by
  unfold widthOk at hw
  have hlane : ¬ (portOf c % fld (wd c.words 1) 0 4 ≠ 0 ∨ (s.lane (portOf c)).anEnable = false ∧
      comboOk (fld (wd c.words 1) 0 4) (s.lane (portOf c)).forcedRate.toNat = false) := by
    rintro (hmis | ⟨hoff, hcombo⟩)
    · exact hmis hp
    · exact absurd (hforced hoff) (by simp [hcombo])
  simp only [portConfigAct]
  rw [if_neg (by omega), if_neg hlane, if_neg (by simp [hover]), hv]
  dsimp only
  split
  · rfl
  · exact if_pos ⟨hen, hmax⟩

/-- A setup (`Port.setup`) that R412 allows. -/
def RiwenFits (x : BitVec 4 × BitVec 14 × Bool) : Prop := x.2.2 = true → 4134 ≤ x.2.1.toNat

theorem riwenFits_ports_iff (s : State) :
    (∀ p u, s.port? p = some u → u.riwenEn = true → 4134 ≤ u.maxFrame.toNat) ↔
      ∀ p x, portSetups s.ports p = some x → RiwenFits x := by
  constructor
  · intro h p x hx
    obtain ⟨u, hu, rfl⟩ := Option.map_eq_some_iff.mp hx
    exact h p u hu
  · exact fun h p u hu => h p u.setup (portSetups_of_port? hu)

/-- What RELAY_CONFIG can do to the setup of the ports: nothing, or it writes RIWEN_EN of the port that it names, as
R412 allows. -/
def SetsRiwen (c : Cmd) (s t : State) : Prop :=
  let p := fld (wd c.words 0) 0 10
  let en := bit (wd c.words 1) 0
  portSetups t.ports = portSetups s.ports ∨
  ∃ v : Port, (en = true → 4134 ≤ v.maxFrame.toNat) ∧
    portSetups t.ports = fun q => if q = p then some (v.width, v.maxFrame, en) else portSetups s.ports q

@[simp] theorem forgetRole_ports (s : State) (p old new : Nat) : (s.forgetRole p old new).ports = s.ports := by
  unfold State.forgetRole; split <;> rfl

theorem relayConfigAct_setsRiwen (c : Cmd) (s : State) : SetsRiwen c s (relayConfigAct c s).1 := by
  unfold SetsRiwen
  intro p en
  simp only [relayConfigAct]
  split
  · exact .inl rfl
  split
  · exact .inl rfl
  next v _ =>
  split
  · exact .inl rfl
  next hparam =>
  split
  · exact .inl rfl
  split
  · exact .inl rfl
  refine .inr ⟨v, fun hen => Nat.le_of_not_lt fun hlt => hparam (.inl ⟨hen, hlt⟩), ?_⟩
  simp only [done, forgetRole_ports, setPort_ports, portSetups_tins]
  rfl

theorem execRelayConfig_setsRiwen {c : Cmd} {s t : State} (h : execRelayConfig c s = .next t) : SetsRiwen c s t := by
  cases h
  exact runCmd_keeps (.inl rfl) (fun _ _ h => h) (fun u h => by rwa [SetsRiwen, commits_ports]) (relayConfigAct_setsRiwen c s)

/-- Setups that fit still fit after one port is set up with a setup that fits. -/
theorem riwenFits_update {f g : Nat → Option (BitVec 4 × BitVec 14 × Bool)} {p : Nat} {x : BitVec 4 × BitVec 14 × Bool}
    (hf : ∀ q y, f q = some y → RiwenFits y) (hg : g = fun q => if q = p then some x else f q) (hx : RiwenFits x) :
    ∀ q y, g q = some y → RiwenFits y := by
  intro q y hy
  rw [hg] at hy
  dsimp only at hy
  split at hy
  · rwa [← Option.some.inj hy]
  · exact hf q y hy

/-- A MAX_FRAME field fits into the 14 bits that hold it. -/
theorem toNat_ofNat_fld (w : Word) (lo len : Nat) : (BitVec.ofNat len (fld w lo len)).toNat = fld w lo len := by
  rw [BitVec.toNat_ofNat, fld, Nat.mod_mod]

/-- Settles O58: the checks of both actions, and all that each can do to the setup of the ports (`SetsRiwen`, `SetsUp`). -/
theorem riwenPortsTakeTheLargestFrame : Obligations.RiwenPortsTakeTheLargestFrame := by
  intro c s v
  refine ⟨fun htakes hlevel hv hen hmax => completes_of_fail rfl htakes (relayConfigAct_shortFrame hlevel hv hen hmax),
    fun htakes hw hfc hct hct' hmin hp hforced hover hv hen hmax => completes_of_fail rfl htakes
      (portConfigAct_shortFrame hw hfc hct hct' hmin hp hforced hover hv hen hmax), ?_⟩
  intro hfits t ht
  rw [riwenFits_ports_iff] at hfits ⊢
  rcases ht with hrelay | hport
  · rcases execRelayConfig_setsRiwen hrelay with hsame | ⟨u, hen, hset⟩
    · rwa [hsame]
    · exact riwenFits_update hfits hset hen
  · rcases execPortConfig_setsUp hport with hsame | ⟨-, -, hen, hset⟩
    · rwa [hsame]
    · exact riwenFits_update hfits hset fun h => (toNat_ofNat_fld ..).symm ▸ hen h

end Sys2Proof.Machine
end
